-- ==== Sys2Proof/Word.lean ====
section
/-! DEFINITION. The word types of the block: the widths of 00_scope.md R9. -/

namespace Sys2Proof

/-- A command word or a response word (CMD_W = RSP_W = 32, R9). -/
abbrev Word := BitVec 32

/-- The OPERAND field of a command, and the RESULT field of a response (OPERAND_W = RESULT_W = 24, R9). -/
abbrev Operand := BitVec 24

/-- A payload (DATA_W = 12, R9). -/
abbrev Data := BitVec 12

/-- A check field or remainder (CHECK_W = 11, R9). -/
abbrev Check := BitVec 11

/-- A 23-bit word: a basic codeword or a received basic word (CW_W = 23, R9). -/
abbrev Word23 := BitVec 23

/-- A 24-bit word: an extended codeword, a received extended word, a result (CWX_W = 24, R9). -/
abbrev Word24 := BitVec 24

end Sys2Proof
end

