-- ==== Sys2Proof/Syntax.lean ====
section
/-! DEFINITION. The commands of the block, and the host's notation for them (30_encoding.md R48, R57, R58). -/

namespace Sys2Proof

/-- A command: one constructor per row of the opcode table (30_encoding.md R48). Each holds the whole 24-bit OPERAND
field; which of its bits an operation reads is that operation's meaning (R46, R49), so no bit of a command word is
lost in decoding. -/
inductive Instr where
  /-- ENC, OP 0x1: encode, basic (40_encoder.md R63). -/
  | enc (operand : Operand)
  /-- ENCX, OP 0x2: encode, extended (40_encoder.md R64). -/
  | encx (operand : Operand)
  /-- SYN, OP 0x3: syndrome (41_syndrome.md R68). -/
  | syn (operand : Operand)
  /-- WGT, OP 0x4: Hamming weight (42_weight.md R75). -/
  | wgt (operand : Operand)
  /-- DEC, OP 0x5: decode, basic (43_decoder.md R91). -/
  | dec (operand : Operand)
  /-- DECX, OP 0x6: decode, extended (43_decoder.md R94). -/
  | decx (operand : Operand)
  deriving DecidableEq, Repr

/-- The six mnemonics of the opcode map (30_encoding.md R48). -/
inductive Mnemonic where
  | enc | encx | syn | wgt | dec | decx
  deriving DecidableEq, Repr

/-- The OPERAND field of a command (30_encoding.md R45). -/
def Instr.operand : Instr → Operand
  | .enc x => x
  | .encx x => x
  | .syn x => x
  | .wgt x => x
  | .dec x => x
  | .decx x => x

/-- The operation a command selects (30_encoding.md R48). -/
def Instr.mnemonic : Instr → Mnemonic
  | .enc _ => .enc
  | .encx _ => .encx
  | .syn _ => .syn
  | .wgt _ => .wgt
  | .dec _ => .dec
  | .decx _ => .decx

/-- The command of an operation and an OPERAND field. -/
def Mnemonic.instr : Mnemonic → Operand → Instr
  | .enc, x => .enc x
  | .encx, x => .encx x
  | .syn, x => .syn x
  | .wgt, x => .wgt x
  | .dec, x => .dec x
  | .decx, x => .decx x

/-- One line of the host's command notation (30_encoding.md R57): a mnemonic with a number, or `.word` with a
number. The numbers are unchecked here; `AsmLine.wellFormed` checks their widths. -/
inductive AsmLine where
  | command (m : Mnemonic) (operand : Nat)
  | word (w : Nat)
  deriving DecidableEq, Repr

/-- The two variants of the code (00_scope.md R3). -/
inductive Variant where
  | basic | extended
  deriving DecidableEq, Repr

/-- The host-side pseudo-operations (30_encoding.md R58). -/
inductive Pseudo where
  | encode (v : Variant) (d : Nat)
  | syndrome (c : Nat)
  | weight (x : Nat)
  | correct (r : Nat)
  | decode (v : Variant) (r : Nat)
  deriving DecidableEq, Repr

/-- Why the decoder refuses a word (30_encoding.md R54, R55). -/
inductive DecodeError where
  /-- RSV is not 0000. -/
  | reservedBits (rsv : BitVec 4)
  /-- RSV is 0000 and OP is 0x0 or 0x7 to 0xF. -/
  | reservedOpcode (op : BitVec 4)
  deriving DecidableEq, Repr

end Sys2Proof
end

