-- ==== Sys2Proof/WellFormed.lean ====
section
/-! DEFINITION. Well-formedness of the host's notation, and the caller's operand contract.
A value of `Instr` needs no check: its operand has exactly 24 bits, and every OPERAND value is allowed (30_encoding.md
R49, R53). What can be ill-formed is a line of the command notation (R57). -/

namespace Sys2Proof

/-- An assembler line is well-formed when its number fits: 24 bits for an operand ("an operand wider than 24 bits is
an assembly error"), 32 bits for a `.word` (30_encoding.md R57). -/
def AsmLine.wellFormed : AsmLine → Bool
  | .command _ x => decide (x < 2 ^ 24)
  | .word w => decide (w < 2 ^ 32)

/-- The number of OPERAND bits an operation reads (30_encoding.md R46). -/
def Mnemonic.operandWidth : Mnemonic → Nat
  | .enc => 12
  | .encx => 12
  | .syn => 23
  | .wgt => 24
  | .dec => 23
  | .decx => 24

/-- The source's contract on the caller: the operand fits in the bits the operation reads. The block does not check it
and ignores the bits above (30_encoding.md R49; 90_conflicts.md C11), so no meaning of this model asks for it. -/
def Instr.inContract (i : Instr) : Bool :=
  decide (i.operand.toNat < 2 ^ i.mnemonic.operandWidth)

end Sys2Proof
end

