-- ==== Sys2Proof/Decode.lean ====
section
/-! DEFINITION. The decoder, total on 32-bit words, the encoder, and the command notation (30_encoding.md R45-R58). -/

namespace Sys2Proof

/-- OP, bits 31:28 (30_encoding.md R45). -/
def opField (w : Word) : BitVec 4 := w.extractLsb' 28 4

/-- RSV, bits 27:24 (30_encoding.md R45). -/
def rsvField (w : Word) : BitVec 4 := w.extractLsb' 24 4

/-- OPERAND, bits 23:0 (30_encoding.md R45). -/
def operandField (w : Word) : Operand := w.extractLsb' 0 24

/-- The decoder (30_encoding.md R47, R48, R53): RSV is tested first, then OP selects; every other OP is reserved
(R54). -/
def decode (w : Word) : Except DecodeError Instr :=
  if rsvField w = 0#4 then
    match (opField w).toNat with
    | 0x1 => .ok (.enc (operandField w))
    | 0x2 => .ok (.encx (operandField w))
    | 0x3 => .ok (.syn (operandField w))
    | 0x4 => .ok (.wgt (operandField w))
    | 0x5 => .ok (.dec (operandField w))
    | 0x6 => .ok (.decx (operandField w))
    | _ => .error (.reservedOpcode (opField w))
  else .error (.reservedBits (rsvField w))

/-- The opcode of an operation (30_encoding.md R48). -/
def Mnemonic.opcode : Mnemonic → BitVec 4
  | .enc => 0x1#4
  | .encx => 0x2#4
  | .syn => 0x3#4
  | .wgt => 0x4#4
  | .dec => 0x5#4
  | .decx => 0x6#4

/-- The command word of a command: `OP, 0000, OPERAND` from bit 31 down (30_encoding.md R45, R57). -/
def encode (i : Instr) : Word :=
  i.mnemonic.opcode ++ 0#4 ++ i.operand

/-- The 32-bit word whose low `nbits` bits are those of `w` and whose other bits are 0: bit 0 of the opcode table's
numbering is bit 0 of CMD_WORD (00_scope.md R12). Log 20. -/
def tableWord (nbits w : Nat) : Word := BitVec.ofNat 32 (w % 2 ^ nbits)

/-- What the decoder reads from an instruction given in the opcode table's numbering. -/
def decodeTableWord (nbits w : Nat) : Option Instr :=
  match decode (tableWord nbits w) with
  | .ok i => some i
  | .error _ => none

/-- The word of a line of the command notation; none is an assembly error (30_encoding.md R57). -/
def AsmLine.assemble (l : AsmLine) : Option Word :=
  if l.wellFormed then
    match l with
    | .command m x => some (encode (m.instr (BitVec.ofNat 24 x)))
    | .word w => some (BitVec.ofNat 32 w)
  else none

/-- The command a pseudo-operation stands for (30_encoding.md R58). -/
def Pseudo.expand : Pseudo → AsmLine
  | .encode .extended d => .command .encx d
  | .encode .basic d => .command .enc d
  | .syndrome c => .command .syn c
  | .weight x => .command .wgt x
  | .correct r => .command .dec r
  | .decode .basic r => .command .dec r
  | .decode .extended r => .command .decx r

/-! The text of the command notation, as lists of characters (log 22). -/

/-- The value of one digit, in base 16 or, for 0 to 9, in base 10 too. -/
def digitValue (c : Char) : Option Nat :=
  if '0' ≤ c ∧ c ≤ '9' then some (c.toNat - '0'.toNat)
  else if 'a' ≤ c ∧ c ≤ 'f' then some (c.toNat - 'a'.toNat + 10)
  else if 'A' ≤ c ∧ c ≤ 'F' then some (c.toNat - 'A'.toNat + 10)
  else none

/-- The digits of a number in the given base, onto the value read so far. -/
def parseDigits (base : Nat) : Nat → List Char → Option Nat
  | acc, [] => some acc
  | acc, c :: cs =>
    match digitValue c with
    | some d => if d < base then parseDigits base (base * acc + d) cs else none
    | none => none

/-- "a hexadecimal number (prefix `0x`) or a decimal number" (30_encoding.md R57). -/
def parseNumber : List Char → Option Nat
  | '0' :: 'x' :: c :: cs => parseDigits 16 0 (c :: cs)
  | c :: cs => parseDigits 10 0 (c :: cs)
  | [] => none

/-- The words of a line: its characters up to a `;`, cut at spaces. -/
def lineWords : List Char → List Char → List (List Char)
  | cur, [] => if cur.isEmpty then [] else [cur.reverse]
  | cur, c :: cs =>
    if c = ';' then (if cur.isEmpty then [] else [cur.reverse])
    else if c = ' ' then (if cur.isEmpty then lineWords [] cs else cur.reverse :: lineWords [] cs)
    else lineWords (c :: cur) cs

/-- The spelling of a mnemonic (30_encoding.md R48). -/
def parseMnemonic : List Char → Option Mnemonic
  | ['E', 'N', 'C'] => some .enc
  | ['E', 'N', 'C', 'X'] => some .encx
  | ['S', 'Y', 'N'] => some .syn
  | ['W', 'G', 'T'] => some .wgt
  | ['D', 'E', 'C'] => some .dec
  | ['D', 'E', 'C', 'X'] => some .decx
  | _ => none

/-- One line of the notation: `MNEMONIC operand` or `.word number`, and a comment after `;` (30_encoding.md R57). -/
def parseLine (line : List Char) : Option AsmLine :=
  match lineWords [] line with
  | [head, arg] =>
    match parseNumber arg with
    | none => none
    | some n =>
      if head = ['.', 'w', 'o', 'r', 'd'] then some (.word n)
      else
        match parseMnemonic head with
        | some m => some (.command m n)
        | none => none
  | _ => none

/-- The command word a line of the notation assembles to. -/
def assembleLine (line : List Char) : Option Word :=
  match parseLine line with
  | some l => l.assemble
  | none => none

end Sys2Proof
end

