-- ==== Sys2Proof/Machine/Constants.lean ====
section
/-! DEFINITION. The two hardwired constants (10_state.md R26) and the fixed parameters of the search (00_scope.md R9). -/

namespace Sys2Proof.Machine

/-- G, the generator polynomial: 0xAE3, 12 bits, degree 11 (10_state.md R26). -/
def generator : BitVec 12 := 0xAE3#12

/-- NIBBLE_WEIGHT (10_state.md R26; 42_weight.md R73). -/
def nibbleWeight (n : BitVec 4) : Nat :=
  (#v[0, 1, 1, 2, 1, 2, 2, 3, 1, 2, 2, 3, 2, 3, 3, 4] : Vector Nat 16)[n.toNat]'n.isLt

/-- DIV_ITER: division iterations (00_scope.md R9). -/
def divIter : Nat := 12

/-- THR_NOFLIP (00_scope.md R9). -/
def thrNoFlip : Nat := 3

/-- THR_FLIP (00_scope.md R9). -/
def thrFlip : Nat := 2

end Sys2Proof.Machine
end

