-- ==== Sys2Proof/Machine/Operands.lean ====
section
/-! DEFINITION. The operand forms (30_encoding.md R46): which bits of OPERAND an operation reads. The bits above are
ignored (R49). -/

namespace Sys2Proof.Machine

/-- OPERAND[11:0], read by ENC and ENCX (30_encoding.md R46). -/
def dataOf (x : Operand) : Data := x.extractLsb' 0 12

/-- OPERAND[22:0], read by SYN and DEC, and the basic part of a DECX operand (30_encoding.md R46; 43_decoder.md R94). -/
def word23Of (x : Operand) : Word23 := x.extractLsb' 0 23

/-- OPERAND[23:0], read by WGT and DECX (30_encoding.md R46). -/
def word24Of (x : Operand) : Word24 := x

/-- Bit 23: the parity bit of an extended word (10_state.md R28; 43_decoder.md R93). -/
def parityBit (x : Word24) : Bool := x.getLsbD 23

/-- A 23-bit word as a 24-bit result: bit 23 = 0 (30_encoding.md R50). -/
def zext24 (c : Word23) : Word24 := c.setWidth 24

/-- The extended word with the given parity bit over 23 bits (40_encoder.md R64; 43_decoder.md R94). -/
def withParity (p : Bool) (c : Word23) : Word24 := BitVec.ofBool p ++ c

end Sys2Proof.Machine
end

