-- ==== Sys2Proof/Config.lean ====
section
/-! DEFINITION. The free values: what the spec leaves unspecified and no proof may know.
Each is an opaque constant with no body, applied to the counter `State.freeCount`, so that each use draws a value of
its own. The hardwired constants of 10_state.md R26 are no free values: they stand in Machine/Constants.lean.
The open parameters LATENCY, BUS_MAP and BYTE_LANES (92_eei_decisions.md D15, D18, D19) have no constant here: no rule
depends on them, and 00_scope.md R8 leaves timing and the bus attachment out (log 18 and log 19). -/

namespace Sys2Proof.Config

/-- RSP_WORD while PHASE = BUSY (70_reset_and_hazards.md R124). Log 5. -/
opaque freeRspWord : Nat → BitVec 32

/-- RCV outside a search (10_state.md R30). Log 6. -/
opaque freeRcv : Nat → BitVec 24

/-- I outside a search (10_state.md R30). Log 6. -/
opaque freeI : Nat → BitVec 5

/-- T outside a search (10_state.md R30). Log 6. -/
opaque freeT : Nat → BitVec 5

/-- W outside a search (10_state.md R30). Log 6. -/
opaque freeW : Nat → BitVec 23

/-- WP outside a search (10_state.md R30). Log 6. -/
opaque freeWp : Nat → BitVec 23

/-- S outside a search (10_state.md R30). Log 6. -/
opaque freeS : Nat → BitVec 24

/-- FOUND outside a search (10_state.md R30). Log 6. -/
opaque freeFound : Nat → Bool

end Sys2Proof.Config
end

