-- ==== Sys2Proof/Machine/State.lean ====
section
/-! DEFINITION. The state of the block, its faults and refusals, and the state after reset. -/

namespace Sys2Proof.Machine

/-- PHASE (10_state.md R20). -/
inductive Phase where
  | idle | busy
  deriving DecidableEq, Repr

/-- The hidden registers of the Corrector's search (10_state.md R30). -/
structure SearchRegs where
  /-- RCV: the latched received word, the operand. -/
  rcv : BitVec 24
  /-- I: the rotation counter, 0 to 22. -/
  i : BitVec 5
  /-- T: the trial index, stored as t + 1. -/
  t : BitVec 5
  /-- W: the rotated word. -/
  w : BitVec 23
  /-- WP: the probed word. -/
  wp : BitVec 23
  /-- S: the syndrome of WP. -/
  s : BitVec 24
  /-- FOUND: the search has accepted a probe. -/
  found : Bool
  deriving DecidableEq, Repr

/-- The state: the input ports the host drives (10_state.md R18), the visible state (R20), the latched command (R31),
the hidden search registers (R30), and the model's own counter of free values. -/
structure State where
  /-- RST, input port (R18). Only the host changes it. -/
  rst : Bool
  /-- CMD_VALID, input port (R18). Only the host changes it. -/
  cmdValid : Bool
  /-- CMD_WORD, input port (R18). Only the host changes it. -/
  cmdWord : BitVec 32
  /-- PHASE (R20). -/
  phase : Phase
  /-- RSP_VALID (R20). -/
  rspValid : Bool
  /-- RSP_WORD (R20, R21). -/
  rspWord : BitVec 32
  /-- CMD: the command accepted last (R31). -/
  cmd : BitVec 32
  /-- RCV, I, T, W, WP, S, FOUND (R30). -/
  hid : SearchRegs
  /-- The model's own field: how many free values have been drawn. Log 10. -/
  freeCount : Nat
  deriving DecidableEq, Repr

/-- Why a step can fault. -/
inductive Fault where
  /-- IllegalCommand: the block refused the command word `cmd` (30_encoding.md R55; 60_exceptions.md R103). Raised by
  `step` and `edge` when a refused command completes, by no instruction of the opcode table. `after` is the state of
  the block afterwards, with its response 0x08000000 presented. Safe: the model stops where the block goes on, as R103
  asks of a model. Log 1. -/
  | illegalCommand (cmd : BitVec 32) (after : State)
  deriving DecidableEq, Repr

/-- Why something has no meaning. No step answers a refusal; `noResponse`, `statusNeverProduced` and
`notReady` are answers to what the host does at the ports. -/
inductive Refusal where
  /-- Raised by an arm of `exec` for an instruction with no meaning; no arm does. Safe. -/
  | notModelled (mnemonic : String)
  /-- Raised by `readResponse`: a read of RSP_WORD with RSP_VALID = 0 has no value (70_reset_and_hazards.md R122;
  93_implementation_defined.md U4). Safe. Log 13. -/
  | noResponse
  /-- Raised by `readStatus`: STATUS = 11, which no rule writes (10_state.md R22; 93_implementation_defined.md U6).
  Safe. Log 13. -/
  | statusNeverProduced
  /-- Raised by `issue`: the host's issue step, which is enabled only in PHASE = IDLE (70_reset_and_hazards.md R121;
  92_eei_decisions.md D22), taken while the block is BUSY. Safe. Log 24. -/
  | notReady
  deriving DecidableEq, Repr

/-- The hidden registers in `State.reset`. R118 leaves them unspecified: DESIGN CHOICE zero, log 6. -/
def SearchRegs.zero : SearchRegs where
  rcv := 0#24
  i := 0#5
  t := 0#5
  w := 0#23
  wp := 0#23
  s := 0#24
  found := false

/-- The machine right after reset (70_reset_and_hazards.md R118): PHASE = IDLE, RSP_VALID = 0, RSP_WORD = 0, and RST
back at 0, so that CMD_READY = 1. CMD, the hidden registers, the ports CMD_VALID and CMD_WORD and the counter have the
values of log 6, 7, 8 and 10. -/
def State.reset : State where
  rst := false
  cmdValid := false
  cmdWord := 0#32
  phase := .idle
  rspValid := false
  rspWord := 0x00000000#32
  cmd := 0#32
  hid := SearchRegs.zero
  freeCount := 0

end Sys2Proof.Machine
end

