-- ==== Sys2Proof/Machine/Flags.lean ====
section
/-! DEFINITION. RSP_WORD: its fields, its assembly, and the rules that set STATUS and PMISM (10_state.md R21-R25;
30_encoding.md R51; 60_exceptions.md R101, R106). -/

namespace Sys2Proof.Machine

/-- The three decode statuses (10_state.md R22). -/
inductive DecodeStatus where
  | clean | corrected | uncorrectable
  deriving DecidableEq, Repr

/-- The encoding of STATUS (10_state.md R22). -/
def DecodeStatus.bits : DecodeStatus → BitVec 2
  | .clean => 0b00#2
  | .corrected => 0b01#2
  | .uncorrectable => 0b10#2

/-- `rsp(res, st, pm)`: the response of a command that is not refused (30_encoding.md R47, R51). -/
def rsp (res : Word24) (st : DecodeStatus) (pm : Bool) : Word :=
  0b0000#4 ++ 0b0#1 ++ BitVec.ofBool pm ++ st.bits ++ res

/-- `respond_illegal()`: the response of a refused command (30_encoding.md R47, R55). -/
def illegalResponse : Word := 0x08000000#32

/-- RESULT, bits 23:0 (10_state.md R21). -/
def resultField (w : Word) : Word24 := w.extractLsb' 0 24

/-- STATUS, bits 25:24 (10_state.md R21). -/
def statusField (w : Word) : BitVec 2 := w.extractLsb' 24 2

/-- PMISM, bit 26 (10_state.md R21). -/
def pmismField (w : Word) : Bool := w.getLsbD 26

/-- ILLEGAL, bit 27 (10_state.md R21). -/
def illegalField (w : Word) : Bool := w.getLsbD 27

/-- Bits 31:28, always 0000 (10_state.md R21). -/
def topField (w : Word) : BitVec 4 := w.extractLsb' 28 4

/-- The status of a DEC whose search found a codeword k flips away (43_decoder.md R91). -/
def decStatus (k : Nat) : DecodeStatus := if k = 0 then .clean else .corrected

/-- `dist = k + mm`: the distance from the received word to the extended codeword (43_decoder.md R93). -/
def extendedDistance (k : Nat) (mm : Bool) : Nat := k + mm.toNat

/-- The status of a DECX whose search found a codeword, from dist (43_decoder.md R94). -/
def decxStatus (dist : Nat) : DecodeStatus :=
  if dist = 0 then .clean else if dist ≤ 3 then .corrected else .uncorrectable

/-- The host's reading of STATUS; 11 is refused (10_state.md R22; 93_implementation_defined.md U6). Log 13. -/
def readStatus (w : Word) : Except Refusal DecodeStatus :=
  match (statusField w).toNat with
  | 0 => .ok .clean
  | 1 => .ok .corrected
  | 2 => .ok .uncorrectable
  | _ => .error .statusNeverProduced

end Sys2Proof.Machine
end

