-- ==== Sys2Proof/Machine/Ops.lean ====
section
/-! DEFINITION. The named operations on the state: presenting a response, refusing a command, reset (10_state.md R31;
30_encoding.md R55; 70_reset_and_hazards.md R116). The block takes no traps (60_exceptions.md R107): the one shared
operation in the place of taking an exception is `refuse`, and there is nothing to return from (R108). -/

namespace Sys2Proof.Machine

/-- Free values for the hidden registers: what they hold outside a search (10_state.md R30). Log 6. -/
def freeSearchRegs (n : Nat) : SearchRegs where
  rcv := Config.freeRcv n
  i := Config.freeI n
  t := Config.freeT n
  w := Config.freeW n
  wp := Config.freeWp n
  s := Config.freeS n
  found := Config.freeFound n

/-- Completion of a command with the given response, in one update: RSP_WORD <- response, RSP_VALID <- 1,
PHASE <- IDLE (10_state.md R31; 20_memory.md R37). The hidden registers are unspecified from here on (R30). -/
def complete (s : State) (response : Word) : State :=
  { s with
    phase := .idle
    rspValid := true
    rspWord := response
    hid := freeSearchRegs s.freeCount
    freeCount := s.freeCount + 1 }

/-- Completion of a refused command: it "changes nothing but RSP_WORD and RSP_VALID" and PHASE returns to IDLE
(30_encoding.md R55; 10_state.md R31). Log 16. -/
def respondIllegal (s : State) : State :=
  { s with phase := .idle, rspValid := true, rspWord := illegalResponse }

/-- Refusing the latched command: the fault outcome IllegalCommand, with the state that carries the block's response
(60_exceptions.md R103). Log 1. -/
def refuse (s : State) : Host.Outcome State Fault Refusal :=
  .fault (.illegalCommand s.cmd (respondIllegal s))

/-- The state a fault leaves: the block goes on from here (60_exceptions.md R102). -/
def Fault.after : Fault → State
  | .illegalCommand _ t => t

/-- While RST = 1: PHASE <- IDLE, RSP_VALID <- 0, RSP_WORD <- 0 (70_reset_and_hazards.md R116). A command in flight is
abandoned (R117), and the hidden registers are unspecified (R118). -/
def resetEdge (s : State) : State :=
  { s with
    phase := .idle
    rspValid := false
    rspWord := 0x00000000#32
    hid := freeSearchRegs s.freeCount
    freeCount := s.freeCount + 1 }

/-- One internal step of the BUSY phase that leaves the search registers `h`: RSP_WORD is unspecified
(70_reset_and_hazards.md R124). Log 5. -/
def busyTick (s : State) (h : SearchRegs) : State :=
  { s with
    rspWord := Config.freeRspWord s.freeCount
    hid := h
    freeCount := s.freeCount + 1 }

end Sys2Proof.Machine
end

