-- ==== Sys2Proof/Machine/Encoder.lean ====
section
/-! DEFINITION. The polynomial division unit, the parity fold, ENC and ENCX (40_encoder.md R59-R64). -/

namespace Sys2Proof.Machine

/-- One division iteration: test bit 0, XOR with G if it is 1, shift right one (40_encoder.md R59). -/
def divStep (v : Word23) : Word23 :=
  (if v.getLsbD 0 then v ^^^ generator.setWidth 23 else v) >>> 1

/-- n division iterations (40_encoder.md R59). -/
def divSteps : Nat → Word23 → Word23
  | 0, v => v
  | n + 1, v => divSteps n (divStep v)

/-- DIV12 (40_encoder.md R59). -/
def div12 (v : Word23) : Check := (divSteps divIter v).extractLsb' 0 11

/-- The XOR of bits 0 to n-1 of a word. -/
def xorFold (v : Word24) : Nat → Bool
  | 0 => false
  | n + 1 => v.getLsbD n ^^ xorFold v n

/-- PARITY23: the XOR fold of bits 22:0; bit 23 is not read (40_encoder.md R60). -/
def parity23 (v : Word24) : Bool := xorFold v 23

/-- CHECK(d) (40_encoder.md R62). -/
def checkOf (d : Data) : Check := div12 (d.setWidth 23)

/-- The 23-bit codeword of a data value: check in bits 22:12, data in bits 11:0 (40_encoder.md R63). -/
def codeword23 (d : Data) : Word23 := checkOf d ++ d

/-- ENC(d) (40_encoder.md R63). -/
def encResult (d : Data) : Word24 := zext24 (codeword23 d)

/-- ENCX(d) (40_encoder.md R64). -/
def encxResult (d : Data) : Word24 :=
  encResult d ||| ((BitVec.ofBool (parity23 (encResult d))).setWidth 24 <<< 23)

/-- The response to ENC (30_encoding.md R47). -/
def rspEnc (x : Operand) : Word := rsp (encResult (dataOf x)) .clean false

/-- The response to ENCX (30_encoding.md R47). -/
def rspEncx (x : Operand) : Word := rsp (encxResult (dataOf x)) .clean false

/-- ENC (40_encoder.md R63). -/
def execEnc (x : Operand) (s : State) : Host.Outcome State Fault Refusal :=
  .next (complete s (rspEnc x))

/-- ENCX (40_encoder.md R64). -/
def execEncx (x : Operand) (s : State) : Host.Outcome State Fault Refusal :=
  .next (complete s (rspEncx x))

end Sys2Proof.Machine
end

