-- ==== Sys2Proof/Machine/Syndrome.lean ====
section
/-! DEFINITION. The syndrome calculator: SYN (41_syndrome.md R68). -/

namespace Sys2Proof.Machine

/-- SYN(c): the remainder in bits 22:12 (41_syndrome.md R68). -/
def syndrome (c : Word23) : Word24 := (div12 c).setWidth 24 <<< 12

/-- The response to SYN (30_encoding.md R47). -/
def rspSyn (x : Operand) : Word := rsp (syndrome (word23Of x)) .clean false

/-- SYN (41_syndrome.md R68). -/
def execSyn (x : Operand) (s : State) : Host.Outcome State Fault Refusal :=
  .next (complete s (rspSyn x))

end Sys2Proof.Machine
end

