-- ==== Sys2Proof/Machine/Weight.lean ====
section
/-! DEFINITION. The Hamming-weight counter: WGT (42_weight.md R73-R76). -/

namespace Sys2Proof.Machine

/-- x[4j+3:4j] (42_weight.md R74). -/
def nibble (x : Word24) (j : Nat) : BitVec 4 := x.extractLsb' (4 * j) 4

/-- The sum of NIBBLE_WEIGHT over the nibbles 0 to n-1 (42_weight.md R75). -/
def nibbleSum (x : Word24) : Nat → Nat
  | 0 => 0
  | n + 1 => nibbleSum x n + nibbleWeight (nibble x n)

/-- The Hamming weight of a 24-bit word, summed over its six nibbles (42_weight.md R74, R75). Every component that
weighs a word uses this one. -/
def weight (x : Word24) : Nat := nibbleSum x 6

/-- WGT(x) (42_weight.md R75). -/
def wgtResult (x : Word24) : Word24 := BitVec.ofNat 24 (weight x)

/-- The response to WGT (30_encoding.md R47). -/
def rspWgt (x : Operand) : Word := rsp (wgtResult (word24Of x)) .clean false

/-- WGT (42_weight.md R75). -/
def execWgt (x : Operand) (s : State) : Host.Outcome State Fault Refusal :=
  .next (complete s (rspWgt x))

end Sys2Proof.Machine
end

