-- ==== Sys2Proof/Machine/Decoder.lean ====
section
/-! DEFINITION. The error-trapping decoder: the rotator, the probes and their order, the selector, the search, DEC and
DECX (43_decoder.md R77-R97). -/

namespace Sys2Proof.Machine

/-- ROTL23: bit j moves to bit (j + n) mod 23, for n in 0..22 (43_decoder.md R77). -/
def rotl23 (v : Word23) (n : Nat) : Word23 := (v <<< n) ||| (v >>> (23 - n))

/-- ROTR23: bit j moves to bit (j - n) mod 23, for n in 0..22 (43_decoder.md R77). -/
def rotr23 (v : Word23) (n : Nat) : Word23 := rotl23 v ((23 - n) % 23)

/-- The trial bit t; none is t = -1, "no trial flip" (43_decoder.md R79). -/
abbrev Trial := Option (Fin 23)

/-- A probe (i, t) (43_decoder.md R79). -/
structure Probe where
  rot : Fin 23
  trial : Trial
  deriving DecidableEq, Repr

/-- WP from W: the trial bit flipped, if there is one (43_decoder.md R79). -/
def flipTrial (w : Word23) : Trial → Word23
  | none => w
  | some t => w ^^^ (1#23 <<< t.val)

/-- THR(t) (43_decoder.md R79). -/
def threshold : Trial → Nat
  | none => thrNoFlip
  | some _ => thrFlip

/-- WP(r, i, t) (43_decoder.md R79). -/
def probedWord (r : Word23) (p : Probe) : Word23 := flipTrial (rotl23 r p.rot.val) p.trial

/-- S(r, i, t) (43_decoder.md R81). -/
def probeSyndrome (r : Word23) (p : Probe) : Word24 := syndrome (probedWord r p)

/-- accepts(r, i, t) (43_decoder.md R81). -/
def accepts (r : Word23) (p : Probe) : Bool :=
  decide (weight (probeSyndrome r p) ≤ threshold p.trial)

/-- C = ROTR23(WP ^ S, i): the selected pattern applied and the rotation undone (43_decoder.md R82). -/
def reconstruct (wp : Word23) (s : Word24) (i : Nat) : Word23 := rotr23 (wp ^^^ s.setWidth 23) i

/-- t = -1, then 0..22 (43_decoder.md R80). -/
def trialOrder : List Trial := none :: (List.finRange 23).map some

/-- The probes in the order they are tried: rotation outer, trial bit inner (43_decoder.md R80). -/
def probeOrder : List Probe :=
  (List.finRange 23).flatMap fun i => trialOrder.map fun t => ⟨i, t⟩

/-- The number of a probe, counting from 1: 24·i + t + 2 (43_decoder.md R80). -/
def Probe.number (p : Probe) : Nat :=
  match p.trial with
  | none => 24 * p.rot.val + 1
  | some t => 24 * p.rot.val + t.val + 2

/-- What a search returns: the codeword C and the accepting probe, none when no probe accepts (43_decoder.md R84). -/
structure SearchResult where
  codeword : Word23
  probe : Option Probe
  deriving DecidableEq, Repr

/-- found (43_decoder.md R84). -/
def SearchResult.found (f : SearchResult) : Bool := f.probe.isSome

/-- SEARCH: the first accepting probe in the order decides; if none accepts the received word is returned
(43_decoder.md R80, R83, R84). -/
def search (r : Word23) : SearchResult :=
  match probeOrder.find? (accepts r) with
  | some p => { codeword := reconstruct (probedWord r p) (probeSyndrome r p) p.rot.val, probe := some p }
  | none => { codeword := r, probe := none }

/-- k: the number of bits the correction flipped (43_decoder.md R90). -/
def flips (c r : Word23) : Nat := weight (zext24 (c ^^^ r))

/-- mm = PARITY23(C) ^ r[23] (43_decoder.md R93). -/
def parityMismatch (c : Word23) (r : Word24) : Bool := parity23 (zext24 c) ^^ parityBit r

/-- The response of DEC to the received word r, given found and C (43_decoder.md R91). -/
def decResponse (r : Word23) (found : Bool) (c : Word23) : Word :=
  if found then rsp (zext24 c) (decStatus (flips c r)) false
  else rsp (zext24 r) .uncorrectable false

/-- The response of DECX to the received word r, given found and C (43_decoder.md R94). -/
def decxResponse (r : Word24) (found : Bool) (c : Word23) : Word :=
  if found then
    match decxStatus (extendedDistance (flips c (word23Of r)) (parityMismatch c r)) with
    | .clean => rsp (withParity (parity23 (zext24 c)) c) .clean false
    | .corrected => rsp (withParity (parity23 (zext24 c)) c) .corrected false
    | .uncorrectable => rsp r .uncorrectable true
  else rsp r .uncorrectable false

/-- The response to DEC (43_decoder.md R91). -/
def rspDec (x : Operand) : Word :=
  let f := search (word23Of x)
  decResponse (word23Of x) f.found f.codeword

/-- The response to DECX (43_decoder.md R94). -/
def rspDecx (x : Operand) : Word :=
  let f := search (word23Of x)
  decxResponse (word24Of x) f.found f.codeword

/-- DEC (43_decoder.md R91). -/
def execDec (x : Operand) (s : State) : Host.Outcome State Fault Refusal :=
  .next (complete s (rspDec x))

/-- DECX (43_decoder.md R94). -/
def execDecx (x : Operand) (s : State) : Host.Outcome State Fault Refusal :=
  .next (complete s (rspDecx x))

end Sys2Proof.Machine
end

