-- ==== Sys2Proof/Machine/Dispatch.lean ====
section
/-! DEFINITION. One arm per command: the meaning of each operation of the opcode map (30_encoding.md R47, R48). -/

namespace Sys2Proof.Machine

/-- The meaning of a command: its completion from the state in which it was accepted. -/
def exec (i : Instr) (s : State) : Host.Outcome State Fault Refusal :=
  match i with
  | .enc x => Sys2Proof.Machine.execEnc x s
  | .encx x => Sys2Proof.Machine.execEncx x s
  | .syn x => Sys2Proof.Machine.execSyn x s
  | .wgt x => Sys2Proof.Machine.execWgt x s
  | .dec x => Sys2Proof.Machine.execDec x s
  | .decx x => Sys2Proof.Machine.execDecx x s

end Sys2Proof.Machine
end

