-- ==== Sys2Proof/Machine/Phases.lean ====
section
/-! DEFINITION. The transitions of the visible state one by one (10_state.md R31): acceptance, the internal steps of the
BUSY phase on the hidden search registers (R30; 43_decoder.md R85), completion. `edge` is one transition. `transact` is
the whole accepted command as one atomic transaction (10_state.md R32). -/

namespace Sys2Proof.Machine

/-- CMD_READY = 1 exactly when PHASE = IDLE and RST = 0 (10_state.md R20). -/
def cmdReady (s : State) : Bool := decide (s.phase = .idle) && !s.rst

/-- "A command is accepted exactly when CMD_VALID = 1 and CMD_READY = 1" (10_state.md R31). -/
def acceptsCommand (s : State) : Bool := s.cmdValid && cmdReady s

/-- The trial bit that the register T stores as t + 1 (10_state.md R30). T is in 0..23 in every search; log 15. -/
def trialOf (t : BitVec 5) : Trial :=
  if t = 0#5 then none else some (Fin.ofNat 23 (t.toNat - 1))

/-- The search registers at the first probe, (0, -1), of a received word (43_decoder.md R80; 10_state.md R30). -/
def startSearch (x : Operand) : SearchRegs where
  rcv := x
  i := 0#5
  t := 0#5
  w := rotl23 (word23Of x) 0
  wp := rotl23 (word23Of x) 0
  s := syndrome (rotl23 (word23Of x) 0)
  found := false

/-- Does the probe in the registers accept? (43_decoder.md R81). -/
def SearchRegs.accepting (h : SearchRegs) : Bool := decide (weight h.s ≤ threshold (trialOf h.t))

/-- Is the probe in the registers the last one, (22, 22)? (43_decoder.md R80). -/
def SearchRegs.lastProbe (h : SearchRegs) : Bool := decide (h.i = 22#5) && decide (h.t = 23#5)

/-- The registers at the next probe: the next trial bit, or the next rotation with no flip (43_decoder.md R80). RCV is
kept (10_state.md R30). -/
def SearchRegs.advance (h : SearchRegs) : SearchRegs :=
  if h.t = 23#5 then
    let w := rotl23 (word23Of h.rcv) (h.i + 1#5).toNat
    { h with i := h.i + 1#5, t := 0#5, w := w, wp := w, s := syndrome w }
  else
    let wp := flipTrial h.w (trialOf (h.t + 1#5))
    { h with t := h.t + 1#5, wp := wp, s := syndrome wp }

/-- C from the registers of the accepting probe (43_decoder.md R82). -/
def SearchRegs.codeword (h : SearchRegs) : Word23 := reconstruct h.wp h.s h.i.toNat

/-- What acceptance leaves in the hidden registers: a decode starts its search, no other command touches them
(10_state.md R30). -/
def loadSearch (cmd : Word) (h : SearchRegs) : SearchRegs :=
  match decode cmd with
  | .ok (.dec x) => startSearch x
  | .ok (.decx x) => startSearch x
  | _ => h

/-- Acceptance: CMD <- CMD_WORD, PHASE <- BUSY, RSP_VALID <- 0; RSP_WORD is unspecified from here to completion
(10_state.md R31; 70_reset_and_hazards.md R124). -/
def accept (s : State) : State :=
  { s with
    phase := .busy
    rspValid := false
    rspWord := Config.freeRspWord s.freeCount
    cmd := s.cmdWord
    hid := loadSearch s.cmdWord s.hid
    freeCount := s.freeCount + 1 }

/-- One internal step of a search: note the acceptance of the probe in the registers, or go on to the next probe; a
search that has accepted, or whose last probe rejects, completes with the response `finish found C` (43_decoder.md R84,
R85). Log 4. -/
def searchStep (s : State) (finish : Bool → Word23 → Word) : State :=
  if s.hid.found then complete s (finish true s.hid.codeword)
  else if s.hid.accepting then busyTick s { s.hid with found := true }
  else if s.hid.lastProbe then complete s (finish false (word23Of s.hid.rcv))
  else busyTick s s.hid.advance

/-- One internal step of the BUSY phase, on the latched command (10_state.md R31). ENC, ENCX, SYN, WGT and a refused
command complete in one; DEC and DECX search. Log 4. -/
def internalStep (s : State) : Host.Outcome State Fault Refusal :=
  match decode s.cmd with
  | .ok (.enc x) => .next (complete s (rspEnc x))
  | .ok (.encx x) => .next (complete s (rspEncx x))
  | .ok (.syn x) => .next (complete s (rspSyn x))
  | .ok (.wgt x) => .next (complete s (rspWgt x))
  | .ok (.dec _) => .next (searchStep s (decResponse (word23Of s.hid.rcv)))
  | .ok (.decx _) => .next (searchStep s (decxResponse (word24Of s.hid.rcv)))
  | .error _ => refuse s

/-- One transition of 10_state.md R31: RST = 1 first (log 17), then acceptance in IDLE, then one internal step of BUSY.
An IDLE block with nothing to accept does no work (60_exceptions.md R115; log 12). -/
def edge (s : State) : Host.Outcome State Fault Refusal :=
  if s.rst then .next (resetEdge s)
  else
    match s.phase with
    | .busy => internalStep s
    | .idle => if s.cmdValid then .next (accept s) else .next s

/-- The accepted command as one atomic transaction (10_state.md R32): acceptance, then the meaning of the command, or
its refusal (30_encoding.md R55). Log 3. -/
def transact (s : State) : Host.Outcome State Fault Refusal :=
  match decode s.cmdWord with
  | .ok i => exec i (accept s)
  | .error _ => refuse (accept s)

/-- The response to a command that is not refused (30_encoding.md R47). -/
def respondInstr : Instr → Word
  | .enc x => rspEnc x
  | .encx x => rspEncx x
  | .syn x => rspSyn x
  | .wgt x => rspWgt x
  | .dec x => rspDec x
  | .decx x => rspDecx x

/-- `Exec(cmd)`: every 32-bit word has exactly one response (30_encoding.md R47). -/
def respond (cmd : Word) : Word :=
  match decode cmd with
  | .ok i => respondInstr i
  | .error _ => illegalResponse

end Sys2Proof.Machine
end

