-- ==== Sys2Proof/Machine/Step.lean ====
section
/-! DEFINITION. One step of the machine. -/

namespace Sys2Proof.Machine

/-- One step: a command that the block accepts runs as one atomic transaction (10_state.md R32; log 3); otherwise one
transition of R31 (reset, one internal step of BUSY, or an idle step). -/
def step (s : State) : Host.Outcome State Fault Refusal :=
  if acceptsCommand s then transact s else edge s

/-- The state in which the host presents the command word `w` (in the opcode table's numbering) and the block accepts
it at the next step: RST = 0, PHASE = IDLE, CMD_VALID = 1, CMD_WORD = w. Log 9. -/
def State.withFetchWord (s : State) (nbits w : Nat) : State :=
  { s with rst := false, cmdValid := true, cmdWord := tableWord nbits w, phase := .idle }

end Sys2Proof.Machine
end

