-- ==== Sys2Proof/Machine/Port.lean ====
section
/-! DEFINITION. The host's side of the ports: driving the inputs, reading the response, issuing commands and reading the
values of the pseudo-operations (10_state.md R18, R31; 70_reset_and_hazards.md R121-R123; 30_encoding.md R58). -/

namespace Sys2Proof.Machine

/-- The values the host drives on the input ports (10_state.md R18). -/
structure Inputs where
  rst : Bool
  cmdValid : Bool
  cmdWord : Word
  deriving DecidableEq, Repr

/-- The state with the input ports driven. The host changes nothing else. -/
def State.drive (s : State) (p : Inputs) : State :=
  { s with rst := p.rst, cmdValid := p.cmdValid, cmdWord := p.cmdWord }

/-- The input ports as they are driven. -/
def State.inputs (s : State) : Inputs := ⟨s.rst, s.cmdValid, s.cmdWord⟩

/-- The state after an outcome, as the ports show it: a fault leaves the state it carries (60_exceptions.md R102). -/
def settle (s : State) (o : Host.Outcome State Fault Refusal) : State :=
  match o with
  | .next t => t
  | .fault f => f.after
  | .refused _ => s

/-- Transitions of R31, one for each entry of `ps`, the inputs driven before each. -/
def runEdges : List Inputs → State → State
  | [], s => s
  | p :: ps, s => runEdges ps (settle (s.drive p) (edge (s.drive p)))

/-- The host issues one command and lets it complete: CMD_VALID = 1, CMD_WORD = w, RST = 0, one atomic transaction
(10_state.md R32). "In a model, the host's issue step is enabled only in PHASE = IDLE" (70_reset_and_hazards.md R121):
where the block would not accept the command, the issue step is refused and the command in flight goes on untouched.
The host then keeps presenting it, edge by edge (`runEdges`; `KeepsPresenting`). Log 24. -/
def issue (w : Word) (s : State) : Host.Outcome State Fault Refusal :=
  if acceptsCommand (s.drive ⟨false, true, w⟩) then step (s.drive ⟨false, true, w⟩) else .refused .notReady

/-- The host reads RSP_WORD: refused when RSP_VALID = 0 (70_reset_and_hazards.md R122). The state is not changed
(20_memory.md R37). -/
def readResponse (s : State) : Except Refusal Word :=
  if s.rspValid then .ok s.rspWord else .error .noResponse

/-- A host program, a sequence of commands (10_state.md R19): what the host gets for each, in order. A command whose
issue step is refused gets that refusal, never the response to another command (70_reset_and_hazards.md R121). -/
def responses : List Word → State → List (Except Refusal Word)
  | [], _ => []
  | w :: ws, s =>
    match issue w s with
    | .next t => readResponse t :: responses ws t
    | .fault f => readResponse f.after :: responses ws f.after
    | .refused r => .error r :: responses ws s

/-- The value of a pseudo-operation (30_encoding.md R58). -/
inductive PseudoValue where
  | result (w : Word24)
  | count (n : BitVec 5)
  | codeword (c : Word23)
  | decoded (data : Data) (status : BitVec 2) (pmism : Option Bool)
  deriving DecidableEq, Repr

/-- What the host reads from the response of a pseudo-operation's command (30_encoding.md R58). -/
def pseudoValue : Pseudo → Word → PseudoValue
  | .encode _ _, r => .result (resultField r)
  | .syndrome _, r => .result (resultField r)
  | .weight _, r => .count (r.extractLsb' 0 5)
  | .correct _, r => .codeword (r.extractLsb' 0 23)
  | .decode .basic _, r => .decoded (r.extractLsb' 0 12) (statusField r) none
  | .decode .extended _, r => .decoded (r.extractLsb' 0 12) (statusField r) (some (pmismField r))

end Sys2Proof.Machine
end

