-- ==== Sys2Proof/Safety.lean ====
section
/-! DEFINITION. The terms in which the claims are stated: the code and its distance (00_scope.md R2, R15; 43_decoder.md
R87), the invariant of the machine, clean runs (60_exceptions.md R103) and the host's protocol
(70_reset_and_hazards.md R121). -/

namespace Sys2Proof.Machine

/-- The number of 1 bits of a word, counted bit by bit (42_weight.md R74). -/
def popcount {n : Nat} (v : BitVec n) : Nat := (List.range n).countP fun j => v.getLsbD j

/-- The Hamming distance of two words. -/
def distance {n : Nat} (a b : BitVec n) : Nat := popcount (a ^^^ b)

/-- A basic codeword: the encoding of some data value (40_encoder.md R63, R65). -/
def IsCodeword (c : Word23) : Prop := ∃ d : Data, c = codeword23 d

/-- NEAREST(r) as a relation: c is a codeword within distance 3 of r (43_decoder.md R87). -/
def IsNearest (r c : Word23) : Prop := IsCodeword c ∧ distance c r ≤ 3

/-- One step of polynomial long division by g(x), cancelling the term x^(11+k) (00_scope.md R15). -/
def polyStep (v : BitVec 34) (k : Nat) : BitVec 34 :=
  if v.getLsbD (11 + k) then v ^^^ (generator.setWidth 34 <<< k) else v

/-- Long division of a polynomial of degree below 11 + k. -/
def polyReduce : Nat → BitVec 34 → BitVec 34
  | 0, v => v
  | k + 1, v => polyReduce k (polyStep v k)

/-- v(x) mod g(x), for v of degree at most 33, by long division from the top term down (00_scope.md R15). -/
def polyMod (v : BitVec 34) : Check := (polyReduce 23 v).extractLsb' 0 11

/-- The search registers at a probe of a received word (10_state.md R30; 43_decoder.md R79-R81). -/
def SearchRegs.atProbe (x : Operand) (p : Probe) (found : Bool) : SearchRegs where
  rcv := x
  i := BitVec.ofNat 5 p.rot.val
  t := match p.trial with
    | none => 0#5
    | some t => BitVec.ofNat 5 (t.val + 1)
  w := rotl23 (word23Of x) p.rot.val
  wp := probedWord (word23Of x) p
  s := probeSyndrome (word23Of x) p
  found := found

/-- A search in progress on the operand x: the registers stand at some probe, every earlier probe rejects, and FOUND
says that this one accepts (43_decoder.md R80, R84, R85). -/
def SearchInv (x : Operand) (h : SearchRegs) : Prop :=
  ∃ p : Probe, h = SearchRegs.atProbe x p h.found ∧
    (∀ q : Probe, q.number < p.number → accepts (word23Of x) q = false) ∧
    (h.found = true → accepts (word23Of x) p = true)

/-- The invariant of the machine. -/
structure State.Inv (s : State) : Prop where
  /-- While BUSY, RSP_VALID = 0 (10_state.md R31). -/
  busy_no_response : s.phase = .busy → s.rspValid = false
  /-- A valid response is the response to the last accepted command (10_state.md R18; 30_encoding.md R47). -/
  response : s.rspValid = true → s.rspWord = respond s.cmd
  /-- While a decode is BUSY, its search registers are those of a search on its operand (10_state.md R30). -/
  search : s.phase = .busy → ∀ x : Operand,
    (decode s.cmd = .ok (.dec x) ∨ decode s.cmd = .ok (.decx x)) → SearchInv x s.hid

/-- t is s after the completion of a command with response r: the visible state is (IDLE, 1, r) (10_state.md R31), and
everything else is unchanged but for the hidden search registers, which are unspecified in IDLE (R30), and the model's
counter of free values. -/
structure Completed (s t : State) (r : Word) : Prop where
  phase : t.phase = .idle
  rspValid : t.rspValid = true
  rspWord : t.rspWord = r
  rst : t.rst = s.rst
  cmdValid : t.cmdValid = s.cmdValid
  cmdWord : t.cmdWord = s.cmdWord
  cmd : t.cmd = s.cmd

/-- A run of commands with no fault and no refusal (60_exceptions.md R103). -/
def CleanRun : List Word → State → Prop
  | [], _ => True
  | w :: ws, s => ∃ t, issue w s = .next t ∧ CleanRun ws t

/-- The host keeps its promise from one transition to the next: a command that was presented in s, where the transition
did not accept it, is still presented by the next inputs p, with the same CMD_WORD (70_reset_and_hazards.md R121). -/
def KeepsPresenting (s : State) (p : Inputs) : Prop :=
  s.cmdValid = true → acceptsCommand s = false → p.cmdValid = true ∧ p.cmdWord = s.cmdWord

/-- One transition, and the host's next inputs driven after it. -/
def edgeThenDrive (s : State) (p : Inputs) : State := (settle s (edge s)).drive p

/-- One transition after another, the host's next inputs driven after each. -/
def driveRun : List Inputs → State → State
  | [], s => s
  | p :: ps, s => driveRun ps (edgeThenDrive s p)

/-- The host keeps its promise throughout such a run (70_reset_and_hazards.md R121). -/
def LegalHost : List Inputs → State → Prop
  | [], _ => True
  | p :: ps, s => KeepsPresenting s p ∧ LegalHost ps (edgeThenDrive s p)

end Sys2Proof.Machine
end

