-- ==== Sys2Proof/Certificates/Slice0/Obligations.lean ====
section
/-! DEFINITION. The statements for the provers, in the order of OBLIGATIONS.json. Each docstring names the rule of spec/
that the statement formalises. -/

open Sys2Proof Sys2Proof.Machine

/-! Encoding -/

/-- Decoding gives a command exactly for its own word: no bit of the command word is dropped or shared
(30_encoding.md R45, R48, R57). -/
def Obligations.DecodeAndEncodeAgree : Prop :=
  ∀ (w : Word) (i : Instr), decode w = .ok i ↔ w = encode i

/-- A word is refused by the decoder exactly when RSV is not 0000 or OP is 0x0 or 0x7 to 0xF (30_encoding.md R53, R54,
R55). -/
def Obligations.DecoderRefusesExactlyTheReservedWords : Prop :=
  ∀ w : Word, (∃ e, decode w = .error e) ↔
    (w.extractLsb' 24 4 ≠ 0b0000#4 ∨ w.extractLsb' 28 4 = 0x0#4 ∨ 0x7 ≤ (w.extractLsb' 28 4).toNat)

/-- Words written out from the format of 30_encoding.md R45 decode to the commands of R48; the refused words of
95_test_vectors.md L2.7 do not. -/
def Obligations.WrittenWordsDecode : Prop :=
  decode (0x1#4 ++ 0b0000#4 ++ 0x0001FF#24) = .ok (.enc 0x0001FF#24) ∧
  decode (0x2#4 ++ 0b0000#4 ++ 0xABC123#24) = .ok (.encx 0xABC123#24) ∧
  decode (0x3#4 ++ 0b0000#4 ++ 0x3D31B7#24) = .ok (.syn 0x3D31B7#24) ∧
  decode (0x4#4 ++ 0b0000#4 ++ 0x123456#24) = .ok (.wgt 0x123456#24) ∧
  decode (0x5#4 ++ 0b0000#4 ++ 0x7D29FE#24) = .ok (.dec 0x7D29FE#24) ∧
  decode (0x6#4 ++ 0b0000#4 ++ 0xBD31B7#24) = .ok (.decx 0xBD31B7#24) ∧
  decode 0x00000000#32 = .error (.reservedOpcode 0x0#4) ∧
  decode 0x70000000#32 = .error (.reservedOpcode 0x7#4) ∧
  decode 0xF0FFFFFF#32 = .error (.reservedOpcode 0xF#4) ∧
  decode 0x41000000#32 = .error (.reservedBits 0x1#4) ∧
  decode 0x1F0001FF#32 = .error (.reservedBits 0xF#4)

/-- A line `MNEMONIC operand` assembles to `OP, 0000, zext_24(operand)`, a wider operand is an assembly error, and
`.word` gives the word itself; the rule's example line (30_encoding.md R57). -/
def Obligations.AssemblyNotation : Prop :=
  (∀ (m : Mnemonic) (x : Nat), x < 2 ^ 24 →
    (AsmLine.command m x).assemble = some (m.opcode ++ 0b0000#4 ++ BitVec.ofNat 24 x)) ∧
  (∀ (m : Mnemonic) (x : Nat), 2 ^ 24 ≤ x → (AsmLine.command m x).assemble = none) ∧
  (∀ w : Nat, w < 2 ^ 32 → (AsmLine.word w).assemble = some (BitVec.ofNat 32 w)) ∧
  assembleLine "ENC 0x1FF ; -> 0x003D21FF".toList = some 0x100001FF#32 ∧
  assembleLine ".word 0x41000000".toList = some 0x41000000#32

/-- The pseudo-operations encode and decode, through their expansions, give every payload back with STATUS 00, in both
variants, and PMISM = 0 in the extended one (30_encoding.md R58; 40_encoder.md R65; 43_decoder.md R91, R94). -/
def Obligations.PseudoEncodeThenDecodeGivesTheData : Prop :=
  ∀ d : Data,
    (∃ w1 w2 : Word, ∃ c : Word24,
      (Pseudo.encode .basic d.toNat).expand.assemble = some w1 ∧
      pseudoValue (.encode .basic d.toNat) (respond w1) = .result c ∧
      (Pseudo.decode .basic c.toNat).expand.assemble = some w2 ∧
      pseudoValue (.decode .basic c.toNat) (respond w2) = .decoded d 0b00#2 none) ∧
    (∃ w1 w2 : Word, ∃ c : Word24,
      (Pseudo.encode .extended d.toNat).expand.assemble = some w1 ∧
      pseudoValue (.encode .extended d.toNat) (respond w1) = .result c ∧
      (Pseudo.decode .extended c.toNat).expand.assemble = some w2 ∧
      pseudoValue (.decode .extended c.toNat) (respond w2) = .decoded d 0b00#2 (some false))

/-! The shared units -/

/-- DIV12(v) = (v(x) · x^11) mod g(x), with the remainder taken by long division from the top, and the expansion of g(x)
(40_encoder.md R61; 00_scope.md R15). -/
def Obligations.DivisionIsThePolynomialRemainder : Prop :=
  (∀ v : Word23, div12 v = polyMod (v.setWidth 34 <<< 11)) ∧
  generator = (1#12 <<< 11) ^^^ (1#12 <<< 9) ^^^ (1#12 <<< 7) ^^^ (1#12 <<< 6) ^^^ (1#12 <<< 5) ^^^ (1#12 <<< 1) ^^^ 1#12

/-- After the twelfth iteration bits 22:11 are 0, so the remainder loses nothing, and an iteration is the spec's "test
bit 0, conditionally XOR with G, shift right one" (40_encoder.md R59). -/
def Obligations.TwelveIterationsLeaveElevenBits : Prop :=
  ∀ v : Word23,
    (∀ n, divSteps (n + 1) v =
      divSteps n (if v.getLsbD 0 then (v ^^^ 0xAE3#23) >>> 1 else v >>> 1)) ∧
    (divSteps 12 v).extractLsb' 11 12 = 0#12 ∧
    (div12 v).setWidth 23 = divSteps 12 v

/-- PARITY23 is popcount(v[22:0]) mod 2, and appended as bit 23 it makes the number of 1 bits even
(40_encoder.md R60). -/
def Obligations.ParityMakesTheWeightEven : Prop :=
  (∀ v : Word24, (parity23 v).toNat = popcount (v.extractLsb' 0 23) % 2) ∧
  (∀ c : Word23, popcount (BitVec.ofBool (parity23 (c.setWidth 24)) ++ c) % 2 = 0)

/-- SYN is linear over XOR, and the syndrome of a corrupted codeword is that of the error (41_syndrome.md R70). -/
def Obligations.SyndromeIsLinear : Prop :=
  (∀ a b : Word23, syndrome (a ^^^ b) = syndrome a ^^^ syndrome b) ∧
  (∀ c e : Word23, IsCodeword c → syndrome (c ^^^ e) = syndrome e)

/-- A word inside the window is its own syndrome (41_syndrome.md R71). -/
def Obligations.WindowWordIsItsOwnSyndrome : Prop :=
  ∀ v : Word23, v.extractLsb' 0 12 = 0#12 →
    syndrome v = v.setWidth 24 ∧ (div12 v).setWidth 23 = v >>> 12

/-- The closed form of the syndrome (41_syndrome.md R72). -/
def Obligations.SyndromeClosedForm : Prop :=
  ∀ v : Word23, syndrome v = (checkOf (v.extractLsb' 0 12) ^^^ v.extractLsb' 12 11).setWidth 24 <<< 12

/-- SYN(c) = 0 exactly for the codewords, c = ENC(c[11:0]), which are the multiples of g(x) and are 2^12 different words
(41_syndrome.md R69). -/
def Obligations.ZeroSyndromeExactlyForCodewords : Prop :=
  (∀ c : Word23, (syndrome c = 0#24 ↔ c.setWidth 24 = encResult (c.extractLsb' 0 12)) ∧
    (syndrome c = 0#24 ↔ IsCodeword c) ∧
    (syndrome c = 0#24 ↔ polyMod (c.setWidth 34) = 0#11)) ∧
  (∀ d d' : Data, encResult d = encResult d' → d = d')

/-- Every ENC result is systematic, a multiple of g(x) and of syndrome 0; the results are distinct, their weights are
those listed, and the least nonzero weight is 7 (40_encoder.md R65). -/
def Obligations.EncResultsAreCodewords : Prop :=
  (∀ d : Data,
    (encResult d).extractLsb' 0 12 = d ∧
    polyMod ((encResult d).setWidth 34) = 0#11 ∧
    syndrome ((encResult d).extractLsb' 0 23) = 0#24 ∧
    popcount (encResult d) ∈ [0, 7, 8, 11, 12, 15, 16, 23] ∧
    (encResult d ≠ 0#24 → 7 ≤ popcount (encResult d))) ∧
  (∀ d d' : Data, encResult d = encResult d' → d = d') ∧
  (∃ d : Data, popcount (encResult d) = 7)

/-- Every ENCX result has its weight among those listed, and the least nonzero weight is 8 (40_encoder.md R66). -/
def Obligations.EncxResultsHaveEvenWeight : Prop :=
  (∀ d : Data,
    popcount (encxResult d) ∈ [0, 8, 12, 16, 24] ∧
    (encxResult d ≠ 0#24 → 8 ≤ popcount (encxResult d))) ∧
  (∃ d : Data, popcount (encxResult d) = 8)

/-- g(x) divides x^23 + 1, and the order of x modulo g(x) is 23 (40_encoder.md R67). -/
def Obligations.OrderOfXIsTwentyThree : Prop :=
  polyMod 0x000800001#34 = 0#11 ∧
  polyMod (1#34 <<< 23) = 1#11 ∧
  ∀ k : Fin 23, k.val ≠ 0 → polyMod (1#34 <<< k.val) ≠ 1#11

/-- The rotations: their formulas, where each bit goes, that one undoes the other, and that weight and codewords are
kept (43_decoder.md R77). -/
def Obligations.RotationLaws : Prop :=
  ∀ (v : Word23) (n : Nat), n < 23 →
    rotl23 v n = (v <<< n ||| v >>> (23 - n)) ∧
    rotr23 v n = rotl23 v ((23 - n) % 23) ∧
    (∀ j, j < 23 → (rotl23 v n).getLsbD ((j + n) % 23) = v.getLsbD j) ∧
    (∀ j, j < 23 → (rotr23 v n).getLsbD ((j + 23 - n) % 23) = v.getLsbD j) ∧
    rotr23 (rotl23 v n) n = v ∧
    rotl23 v 0 = v ∧
    popcount (rotl23 v n) = popcount v ∧
    (IsCodeword v → IsCodeword (rotl23 v n))

/-- The number of 1 bits is the sum of the nibble weights, and it is what the weight counter gives
(42_weight.md R74). -/
def Obligations.WeightCountsTheOneBits : Prop :=
  ∀ v : Word24,
    popcount v = nibbleWeight (v.extractLsb' 0 4) + nibbleWeight (v.extractLsb' 4 4) + nibbleWeight (v.extractLsb' 8 4) +
      nibbleWeight (v.extractLsb' 12 4) + nibbleWeight (v.extractLsb' 16 4) + nibbleWeight (v.extractLsb' 20 4) ∧
    weight v = popcount v

/-- The nibble-weight table: its sixteen entries, each the number of 1 bits of its index (42_weight.md R73). -/
def Obligations.NibbleWeightTable : Prop :=
  (List.range 16).map (fun n => nibbleWeight (BitVec.ofNat 4 n)) = [0, 1, 1, 2, 1, 2, 2, 3, 1, 2, 2, 3, 2, 3, 3, 4] ∧
  ∀ n : BitVec 4, nibbleWeight n = popcount n

/-! The operations: each completes in every state, on every operand -/

/-- ENC has OP 0x1, and completes with STATUS 00, check in bits 22:12 and data in bits 11:0; the corner cases and the example of the rule
(40_encoder.md R63). -/
def Obligations.EncCompletesWithTheCodeword : Prop :=
  (∀ x : Operand, decode (0x1#4 ++ 0b0000#4 ++ x) = .ok (.enc x)) ∧
  (∀ (x : Operand) (s : State),
    let d : Data := x.extractLsb' 0 12
    ∃ t, exec (.enc x) s = .next t ∧ Completed s t (0x00#8 ++ 0#1 ++ div12 (d.setWidth 23) ++ d)) ∧
  (∀ (x : Operand) (s t : State), exec (.enc x) s = .next t →
    (x = 0x000000#24 → t.rspWord = 0x00000000#32) ∧
    (x = 0x000FFF#24 → t.rspWord = 0x007FFFFF#32) ∧
    (x = 0xABC123#24 → exec (.enc 0x000123#24) s = .next t) ∧
    (x = 0x0001FF#24 → t.rspWord = 0x003D21FF#32))

/-- ENCX has OP 0x2, and completes with STATUS 00 and the ENC codeword under its parity bit; the corner cases and the example of the rule
(40_encoder.md R64). -/
def Obligations.EncxCompletesWithTheExtendedCodeword : Prop :=
  (∀ x : Operand, decode (0x2#4 ++ 0b0000#4 ++ x) = .ok (.encx x)) ∧
  (∀ (x : Operand) (s : State),
    let d : Data := x.extractLsb' 0 12
    let c : Word23 := div12 (d.setWidth 23) ++ d
    ∃ t, exec (.encx x) s = .next t ∧
      Completed s t (0x00#8 ++ BitVec.ofNat 1 (popcount c % 2) ++ c)) ∧
  (∀ (x : Operand) (s t : State), exec (.encx x) s = .next t →
    (x = 0x000000#24 → t.rspWord = 0x00000000#32) ∧
    (x = 0x000FFF#24 → t.rspWord = 0x00FFFFFF#32) ∧
    (x = 0x000555#24 → t.rspWord = 0x004F4555#32) ∧
    (x = 0x0001FF#24 → t.rspWord = 0x00BD21FF#32))

/-- SYN has OP 0x3, and completes with STATUS 00 and the remainder in bits 22:12; the corner cases and the example of the rule
(41_syndrome.md R68). -/
def Obligations.SynCompletesWithTheSyndrome : Prop :=
  (∀ x : Operand, decode (0x3#4 ++ 0b0000#4 ++ x) = .ok (.syn x)) ∧
  (∀ (x : Operand) (s : State),
    ∃ t, exec (.syn x) s = .next t ∧ Completed s t (0x00#8 ++ 0#1 ++ div12 (x.extractLsb' 0 23) ++ 0x000#12)) ∧
  (∀ (x : Operand) (s t : State), exec (.syn x) s = .next t →
    (x = 0x000000#24 → t.rspWord = 0x00000000#32) ∧
    (x = 0x7FFFFF#24 → t.rspWord = 0x00000000#32) ∧
    (x = 0x800000#24 → t.rspWord = 0x00000000#32) ∧
    (∀ j, 12 ≤ j → j ≤ 22 → x = 1#24 <<< j → t.rspWord = 1#32 <<< j) ∧
    (x = 0x000001#24 → t.rspWord = 0x002E3000#32) ∧
    (x = 0x3D31B7#24 → t.rspWord = 0x001E9000#32))

/-- WGT has OP 0x4, and completes with STATUS 00 and the number of 1 bits of the whole operand, which is at most 24; the corner cases and
the example of the rule (42_weight.md R75). -/
def Obligations.WgtCompletesWithTheWeight : Prop :=
  (∀ x : Operand, decode (0x4#4 ++ 0b0000#4 ++ x) = .ok (.wgt x)) ∧
  (∀ (x : Operand) (s : State),
    popcount x ≤ 24 ∧
    ∃ t, exec (.wgt x) s = .next t ∧ Completed s t (0x00#8 ++ 0#19 ++ BitVec.ofNat 5 (popcount x))) ∧
  (∀ (x : Operand) (s t : State), exec (.wgt x) s = .next t →
    (x = 0x000000#24 → t.rspWord = 0#32) ∧
    (x = 0xFFFFFF#24 → t.rspWord = 24#32) ∧
    (x = 0x800000#24 → t.rspWord = 1#32) ∧
    (x = 0x7FFFFF#24 → t.rspWord = 23#32) ∧
    (x = 0x123456#24 → t.rspWord = 0x00000009#32))

/-- DEC has OP 0x5, and completes with the search's codeword, Clean when nothing was flipped and Corrected otherwise, or with the
received word and Uncorrectable when no probe accepted; the corner cases and the example of the rule
(43_decoder.md R91). -/
def Obligations.DecCompletesWithTheSearchResult : Prop :=
  (∀ x : Operand, decode (0x5#4 ++ 0b0000#4 ++ x) = .ok (.dec x)) ∧
  (∀ (x : Operand) (s : State),
    let r : Word23 := x.extractLsb' 0 23
    let c : Word23 := (search r).codeword
    ∃ t, exec (.dec x) s = .next t ∧
      Completed s t
        (if (search r).found = false then 0x02#8 ++ 0#1 ++ r
         else if popcount (c ^^^ r) = 0 then 0x00#8 ++ 0#1 ++ c
         else 0x01#8 ++ 0#1 ++ c)) ∧
  (∀ (x : Operand) (s t : State), exec (.dec x) s = .next t →
    (x = 0x000000#24 → t.rspWord = 0x00000000#32) ∧
    (x = 0x7FFFFF#24 → t.rspWord = 0x007FFFFF#32) ∧
    (x = 0x000001#24 → t.rspWord = 0x01000000#32 ∧ (search 0x000001#23).probe = some ⟨0, some 0⟩) ∧
    (exec (.dec (x ^^^ 0x800000#24)) s = .next t) ∧
    (x = 0x3D31B7#24 → t.rspWord = 0x013D21FF#32 ∧ (search 0x3D31B7#23).probe = some ⟨6, some 9⟩))

/-- DECX has OP 0x6, and completes with the extended codeword, Clean at distance 0 and Corrected at 1 to 3, or with the received word,
Uncorrectable and PMISM at distance 4, or with the received word and Uncorrectable when no probe accepted; the corner
cases and the examples of the rule (43_decoder.md R94). -/
def Obligations.DecxCompletesWithTheParityCheckedResult : Prop :=
  (∀ x : Operand, decode (0x6#4 ++ 0b0000#4 ++ x) = .ok (.decx x)) ∧
  (∀ (x : Operand) (s : State),
    let r : Word23 := x.extractLsb' 0 23
    let c : Word23 := (search r).codeword
    let pc : BitVec 1 := BitVec.ofNat 1 (popcount c % 2)
    let dist : Nat := popcount (c ^^^ r) + popcount (pc ^^^ x.extractLsb' 23 1)
    ∃ t, exec (.decx x) s = .next t ∧
      Completed s t
        (if (search r).found = false then 0x02#8 ++ x
         else if dist = 0 then 0x00#8 ++ pc ++ c
         else if dist ≤ 3 then 0x01#8 ++ pc ++ c
         else 0x06#8 ++ x)) ∧
  (∀ (x : Operand) (s t : State), exec (.decx x) s = .next t →
    (x = 0x000000#24 → t.rspWord = 0x00000000#32) ∧
    (x = 0xFFFFFF#24 → t.rspWord = 0x00FFFFFF#32) ∧
    (x = 0x800000#24 → t.rspWord = 0x01000000#32) ∧
    (x = 0x00000F#24 → t.rspWord = 0x0600000F#32) ∧
    (x = 0xBD31B7#24 → t.rspWord = 0x01BD21FF#32) ∧
    (x = 0x3D31B7#24 → t.rspWord = 0x063D31B7#32))

/-- The widths the operations read, and that operand bits above them change nothing: two commands of one operation that
agree on the bits read have the same outcome (30_encoding.md R46, R49). -/
def Obligations.OperandBitsAboveTheWidthAreIgnored : Prop :=
  ([Mnemonic.enc, .encx, .syn, .wgt, .dec, .decx].map Mnemonic.operandWidth = [12, 12, 23, 24, 23, 24]) ∧
  ∀ (m : Mnemonic) (x y : Operand) (s : State),
    x.toNat % 2 ^ m.operandWidth = y.toNat % 2 ^ m.operandWidth →
    ∃ t, exec (m.instr x) s = .next t ∧ exec (m.instr y) s = .next t ∧
      respond (encode (m.instr x)) = respond (encode (m.instr y))

/-- Result bits above each result's width are 0 (30_encoding.md R50). -/
def Obligations.ResultBitsAboveTheWidthAreZero : Prop :=
  ∀ x : Operand,
    (respond (encode (.enc x))).extractLsb' 23 1 = 0#1 ∧
    (respond (encode (.syn x))).extractLsb' 23 1 = 0#1 ∧
    (respond (encode (.syn x))).extractLsb' 0 12 = 0#12 ∧
    (respond (encode (.wgt x))).extractLsb' 5 19 = 0#19 ∧
    (respond (encode (.dec x))).extractLsb' 23 1 = 0#1

/-- The fields of every response: bits 31:28 are 0; STATUS is never 11, and not 00 only for a decode; PMISM = 1 exactly
when a DECX fails its parity re-check, and then STATUS = 10; ILLEGAL = 1 exactly for a refused word, and then every other
field is 0 (10_state.md R21, R22, R23, R24). -/
def Obligations.ResponseFieldsAreLegal : Prop :=
  ∀ w : Word,
    (respond w).extractLsb' 28 4 = 0b0000#4 ∧
    (respond w).extractLsb' 24 2 ≠ 0b11#2 ∧
    (∃ st, readStatus (respond w) = .ok st) ∧
    ((respond w).extractLsb' 24 2 ≠ 0b00#2 →
      ∃ x, decode w = .ok (.dec x) ∨ decode w = .ok (.decx x)) ∧
    ((respond w).getLsbD 26 = true ↔
      ∃ x, decode w = .ok (.decx x) ∧ (search (x.extractLsb' 0 23)).found = true ∧
        4 ≤ popcount ((search (x.extractLsb' 0 23)).codeword ^^^ x.extractLsb' 0 23) +
          (parityMismatch (search (x.extractLsb' 0 23)).codeword x).toNat) ∧
    ((respond w).getLsbD 26 = true → (respond w).extractLsb' 24 2 = 0b10#2) ∧
    ((respond w).getLsbD 27 = true ↔ ∃ e, decode w = .error e) ∧
    ((respond w).getLsbD 27 = true → respond w = 0x08000000#32)

/-- ENC, ENCX, SYN and WGT never report an error (60_exceptions.md R104). -/
def Obligations.OperationsThatDoNotDecodeReportNoError : Prop :=
  ∀ (x : Operand) (i : Instr), i ∈ [Instr.enc x, .encx x, .syn x, .wgt x] →
    ∀ s : State, ∃ t, exec i s = .next t ∧
      t.rspWord.extractLsb' 24 2 = 0b00#2 ∧ t.rspWord.getLsbD 26 = false ∧ t.rspWord.getLsbD 27 = false

/-! The search -/

/-- The probes come in the order of their numbers, 552 of them, and the first that accepts ends the search
(43_decoder.md R80). -/
def Obligations.FirstAcceptingProbeEndsTheSearch : Prop :=
  probeOrder.length = 552 ∧
  (∀ i : Fin 23, (⟨i, none⟩ : Probe).number = 24 * i.val + 1 ∧
    ∀ t : Fin 23, (⟨i, some t⟩ : Probe).number = 24 * i.val + t.val + 2) ∧
  (∀ p : Probe, probeOrder[p.number - 1]? = some p) ∧
  (∀ (r : Word23) (p : Probe), (search r).probe = some p ↔
    accepts r p = true ∧ ∀ q : Probe, q.number < p.number → accepts r q = false)

/-- A probe that accepts gives a codeword within distance 3 of the received word (43_decoder.md R86). -/
def Obligations.AcceptedProbeGivesANearCodeword : Prop :=
  ∀ (r : Word23) (p : Probe), accepts r p = true →
    IsCodeword (reconstruct (probedWord r p) (probeSyndrome r p) p.rot.val) ∧
    distance (reconstruct (probedWord r p) (probeSyndrome r p) p.rot.val) r ≤ 3

/-- Every 23-bit word is within distance 3 of exactly one codeword, and any accepting probe gives that one (43_decoder.md R87). -/
def Obligations.EveryWordHasExactlyOneNearestCodeword : Prop :=
  (∀ r : Word23, ∃ c, IsNearest r c ∧ ∀ c', IsNearest r c' → c' = c) ∧
  (∀ (r : Word23) (p : Probe), accepts r p = true →
    IsNearest r (reconstruct (probedWord r p) (probeSyndrome r p) p.rot.val))

/-- The search never fails and finds the nearest codeword; the latest accepting probe is (13, 1), number 315
(43_decoder.md R88). -/
def Obligations.SearchAlwaysFindsTheNearestCodeword : Prop :=
  (∀ r : Word23, (search r).found = true ∧ IsNearest r (search r).codeword ∧
    ∀ p, (search r).probe = some p → p.number ≤ 315) ∧
  (∃ r : Word23, (search r).probe = some ⟨13, some 1⟩) ∧
  (⟨13, some 1⟩ : Probe).number = 315

/-- The search depends only on the error pattern (43_decoder.md R89). -/
def Obligations.SearchDependsOnlyOnTheError : Prop :=
  ∀ c e : Word23, IsCodeword c →
    (∀ p : Probe, probeSyndrome (c ^^^ e) p = probeSyndrome e p) ∧
    (search (c ^^^ e)).probe = (search e).probe ∧
    (search (c ^^^ e)).codeword = c ^^^ (search e).codeword

/-- k is at most 3, and is 0 exactly for a codeword, which probe (0, -1) accepts with syndrome 0 (43_decoder.md R90). -/
def Obligations.AtMostThreeBitsAreFlipped : Prop :=
  ∀ r : Word23, (search r).found = true →
    popcount ((search r).codeword ^^^ r) ≤ 3 ∧
    (popcount ((search r).codeword ^^^ r) = 0 ↔ IsCodeword r) ∧
    (IsCodeword r → (search r).probe = some ⟨0, none⟩ ∧ probeSyndrome r ⟨0, none⟩ = 0#24)

/-- The basic decoder's guarantee: up to three errors are corrected; with four or more the result is the nearest
codeword, which is another one. Its status is Corrected unless the received word is itself a codeword. Where it is, the statement
says Clean: that is the model's reading, by the pseudocode of R91 and the closed form of R99, against the prose of R92,
which says Corrected for every pattern of four or more errors (43_decoder.md R91, R92, R99; log 23). -/
def Obligations.DecCorrectsUpToThreeErrors : Prop :=
  ∀ (d : Data) (e : Word23) (x : Operand), x.extractLsb' 0 23 = (encResult d).extractLsb' 0 23 ^^^ e →
    (popcount e = 0 → respond (encode (.dec x)) = 0x00#8 ++ encResult d) ∧
    (1 ≤ popcount e → popcount e ≤ 3 → respond (encode (.dec x)) = 0x01#8 ++ encResult d) ∧
    (4 ≤ popcount e → ∃ d' : Data, d' ≠ d ∧
      IsNearest (x.extractLsb' 0 23) ((encResult d').extractLsb' 0 23) ∧
      (IsCodeword (x.extractLsb' 0 23) → respond (encode (.dec x)) = 0x00#8 ++ encResult d') ∧
      (¬ IsCodeword (x.extractLsb' 0 23) → respond (encode (.dec x)) = 0x01#8 ++ encResult d'))

/-- The extended decoder's guarantee: up to three errors anywhere in the 24 bits are corrected, and every pattern of four
is detected, with the received word returned (43_decoder.md R95). -/
def Obligations.DecxCorrectsThreeAndDetectsFourErrors : Prop :=
  ∀ (d : Data) (e : Word24),
    (popcount e = 0 → respond (encode (.decx (encxResult d ^^^ e))) = 0x00#8 ++ encxResult d) ∧
    (1 ≤ popcount e → popcount e ≤ 3 → respond (encode (.decx (encxResult d ^^^ e))) = 0x01#8 ++ encxResult d) ∧
    (popcount e = 4 → respond (encode (.decx (encxResult d ^^^ e))) = 0x06#8 ++ (encxResult d ^^^ e))

/-- dist = k + mm is the distance from the received word to the extended codeword, and lies in 0..4
(43_decoder.md R93). -/
def Obligations.ExtendedDistanceIsAtMostFour : Prop :=
  ∀ r : Word24,
    let c : Word23 := (search (r.extractLsb' 0 23)).codeword
    let k : Nat := flips c (r.extractLsb' 0 23)
    let mm : Bool := parityMismatch c r
    mm = (parity23 (c.setWidth 24) ^^ r.getLsbD 23) ∧
    extendedDistance k mm = k + (if mm then 1 else 0) ∧
    extendedDistance k mm = distance (BitVec.ofBool (parity23 (c.setWidth 24)) ++ c) r ∧
    extendedDistance k mm ≤ 4

/-- An Uncorrectable result is the received word, and any other result of a decode is a codeword of its variant
(43_decoder.md R97). No DEC operand is Uncorrectable (R88), so the first two clauses say the rule of a failed search
whatever it holds. -/
def Obligations.UncorrectableReturnsTheReceivedWord : Prop :=
  (∀ r c : Word23, decResponse r false c = 0x02#8 ++ 0#1 ++ r) ∧
  (∀ (r : Word24) (c : Word23), decxResponse r false c = 0x02#8 ++ r) ∧
  ∀ x : Operand,
    ((respond (encode (.dec x))).extractLsb' 24 2 = 0b10#2 →
      (respond (encode (.dec x))).extractLsb' 0 24 = 0#1 ++ x.extractLsb' 0 23) ∧
    ((respond (encode (.dec x))).extractLsb' 24 2 ≠ 0b10#2 →
      ∃ d : Data, (respond (encode (.dec x))).extractLsb' 0 24 = encResult d) ∧
    ((respond (encode (.decx x))).extractLsb' 24 2 = 0b10#2 →
      (respond (encode (.decx x))).extractLsb' 0 24 = x) ∧
    ((respond (encode (.decx x))).extractLsb' 24 2 ≠ 0b10#2 →
      ∃ d : Data, (respond (encode (.decx x))).extractLsb' 0 24 = encxResult d)

/-- Neither the probe order nor the rotation direction shows in a response: whichever accepting probe is taken, of the left
rotations or of the right rotations, it reconstructs the codeword of the search, and the responses of DEC and DECX are
those that decResponse and decxResponse give for what it reconstructs; in both directions some probe accepts
(43_decoder.md R98). -/
def Obligations.ResultIsIndependentOfOrderAndDirection : Prop :=
  ∀ x : Operand,
    let r : Word23 := x.extractLsb' 0 23
    (∀ p : Probe, accepts r p = true →
      let c := reconstruct (probedWord r p) (probeSyndrome r p) p.rot.val
      c = (search r).codeword ∧
      respond (encode (.dec x)) = decResponse r true c ∧
      respond (encode (.decx x)) = decxResponse x true c) ∧
    (∃ p : Probe, accepts r p = true) ∧
    (∀ (i : Fin 23) (t : Trial),
      weight (syndrome (flipTrial (rotr23 r i.val) t)) ≤ threshold t →
      let wp := flipTrial (rotr23 r i.val) t
      let c := rotl23 (wp ^^^ (syndrome wp).setWidth 23) i.val
      c = (search r).codeword ∧
      respond (encode (.dec x)) = decResponse r true c ∧
      respond (encode (.decx x)) = decxResponse x true c) ∧
    (∃ (i : Fin 23) (t : Trial), weight (syndrome (flipTrial (rotr23 r i.val) t)) ≤ threshold t)

/-- DEC(r) is NEAREST(r), Clean if that is r and else Corrected, and DECX is defined from NEAREST(r) by the parity
re-check (43_decoder.md R99). -/
def Obligations.DecodesAreDefinedByTheNearestCodeword : Prop :=
  ∀ (x : Operand) (c : Word23), IsNearest (x.extractLsb' 0 23) c →
    respond (encode (.dec x)) =
      (if c = x.extractLsb' 0 23 then 0x00#8 else 0x01#8) ++ 0#1 ++ c ∧
    respond (encode (.decx x)) =
      (let pc := BitVec.ofNat 1 (popcount c % 2)
       let dist := distance c (x.extractLsb' 0 23) + distance pc (x.extractLsb' 23 1)
       if dist = 0 then 0x00#8 ++ pc ++ c
       else if dist ≤ 3 then 0x01#8 ++ pc ++ c
       else 0x06#8 ++ x)

/-- Over all 2^24 operands DECX reports Clean for 4096, Corrected for 9,519,104 and Uncorrectable with PMISM = 1 for
7,254,016 (43_decoder.md R96). -/
def Obligations.DecxOutcomeCounts : Prop :=
  Set.ncard {x : Operand | (respond (encode (.decx x))).extractLsb' 24 3 = 0b000#3} = 4096 ∧
  Set.ncard {x : Operand | (respond (encode (.decx x))).extractLsb' 24 3 = 0b001#3} = 9519104 ∧
  Set.ncard {x : Operand | (respond (encode (.decx x))).extractLsb' 24 3 = 0b110#3} = 7254016

/-! The machine -/

/-- A step of an idle block to which a command is presented runs the decoded command, in the state that acceptance
leaves: CMD latched, PHASE = BUSY, RSP_VALID = 0, the ports untouched (10_state.md R31, R32). -/
def Obligations.StepRunsTheDecodedCommand : Prop :=
  ∀ (s : State) (i : Instr), s.rst = false → s.phase = .idle → s.cmdValid = true → decode s.cmdWord = .ok i →
    ∃ u, step s = exec i u ∧ u.cmd = s.cmdWord ∧ u.phase = .busy ∧ u.rspValid = false ∧
      u.rst = s.rst ∧ u.cmdValid = s.cmdValid ∧ u.cmdWord = s.cmdWord

/-- A word with RSV not 0000 or a reserved OP is accepted like any other, and completes as the fault IllegalCommand with
RSP_WORD = 0x08000000; nothing but RSP_WORD, RSP_VALID and the latched command changes, whatever the OPERAND bits
(30_encoding.md R55). -/
def Obligations.RefusedCommandRespondsIllegal : Prop :=
  (∀ w : Word, (∃ e, decode w = .error e) ↔
    (w.extractLsb' 24 4 ≠ 0b0000#4 ∨ w.extractLsb' 28 4 ∈ [0x0#4, 0x7, 0x8, 0x9, 0xA, 0xB, 0xC, 0xD, 0xE, 0xF])) ∧
  (∀ s : State, s.rst = false → s.phase = .idle → s.cmdValid = true → (∃ e, decode s.cmdWord = .error e) →
    ∃ t, step s = .fault (.illegalCommand s.cmdWord t) ∧
      t.rspWord = 0x08000000#32 ∧ t.rspValid = true ∧ t.phase = .idle ∧ t.cmd = s.cmdWord ∧ t.hid = s.hid ∧
      t.rst = s.rst ∧ t.cmdValid = s.cmdValid ∧ t.cmdWord = s.cmdWord)

/-- A sequence of commands from an idle block is a clean run exactly when it issues no refused word
(60_exceptions.md R103). -/
def Obligations.CleanRunsIssueNoRefusedWord : Prop :=
  ∀ (ws : List Word) (s : State), s.phase = .idle →
    (CleanRun ws s ↔ ∀ w ∈ ws, ∃ i, decode w = .ok i)

/-- A step is never refused, and the only fault is IllegalCommand, raised for a word the decoder refuses: the one
presented to an idle block, or the one latched by a busy block (60_exceptions.md R103). -/
def Obligations.IllegalCommandIsTheOnlyFault : Prop :=
  ∀ s : State,
    (∀ r, step s ≠ .refused r) ∧
    (∀ f, step s = .fault f → ∃ (w : Word) (t : State), f = .illegalCommand w t ∧ (∃ e, decode w = .error e) ∧
      s.rst = false ∧ ((s.phase = .idle ∧ s.cmdValid = true ∧ w = s.cmdWord) ∨ (s.phase = .busy ∧ w = s.cmd)))

/-- While RST = 1, every step leaves PHASE = IDLE, RSP_VALID = 0, RSP_WORD = 0 and CMD_READY = 0, also for a command in
flight, which gives no response; with RST back at 0, CMD_READY = 1, no response appears with no command presented, and
the command can be issued again (70_reset_and_hazards.md R116, R117). -/
def Obligations.ResetAbandonsTheCommand : Prop :=
  ∀ s : State, s.rst = true →
    ∃ t, step s = .next t ∧ t.phase = .idle ∧ t.rspValid = false ∧ t.rspWord = 0x00000000#32 ∧
      cmdReady t = false ∧ acceptsCommand t = false ∧
      t.rst = s.rst ∧ t.cmdValid = s.cmdValid ∧ t.cmdWord = s.cmdWord ∧
      (∀ w : Word, cmdReady (t.drive ⟨false, false, w⟩) = true ∧
        ∃ v, step (t.drive ⟨false, false, w⟩) = .next v ∧
          v.phase = .idle ∧ v.rspValid = false ∧ v.rspWord = 0x00000000#32) ∧
      (∀ i : Instr, ∃ u, issue (encode i) t = .next u ∧ u.rspValid = true ∧ u.rspWord = respond (encode i))

/-- The values the spec gives the state after reset, and the hardwired constants (70_reset_and_hazards.md R118). -/
def Obligations.ResetStateHasTheSpecValues : Prop :=
  State.reset.phase = .idle ∧
  State.reset.rspValid = false ∧
  State.reset.rspWord = 0x00000000#32 ∧
  cmdReady State.reset = true ∧
  (∀ v w, cmdReady (State.reset.drive ⟨true, v, w⟩) = false) ∧
  generator = 0xAE3#12 ∧
  (List.range 16).map (fun n => nibbleWeight (BitVec.ofNat 4 n)) = [0, 1, 1, 2, 1, 2, 2, 3, 1, 2, 2, 3, 2, 3, 3, 4]

/-- An idle block to which nothing is presented does no work (60_exceptions.md R115; that the hidden registers stay too is
the model's choice, log 12). -/
def Obligations.IdleBlockDoesNoWork : Prop :=
  ∀ s : State, s.rst = false → s.phase = .idle → s.cmdValid = false → step s = .next s

/-- The transitions of the visible state, and no others: reset, acceptance, internal steps, completion with the response
to the latched command; a response stays until the next acceptance or reset (10_state.md R31). -/
def Obligations.VisibleStateTransitions : Prop :=
  ∀ s : State, s.Inv →
    let t := settle s (edge s)
    (s.rst = true → t.phase = .idle ∧ t.rspValid = false ∧ t.rspWord = 0x00000000#32) ∧
    (s.rst = false → s.phase = .idle → s.cmdValid = true →
      t.cmd = s.cmdWord ∧ t.phase = .busy ∧ t.rspValid = false) ∧
    (s.rst = false → s.phase = .idle → s.cmdValid = false →
      t.phase = .idle ∧ t.rspValid = s.rspValid ∧ t.rspWord = s.rspWord) ∧
    (s.rst = false → s.phase = .busy →
      (t.phase = .busy ∧ t.rspValid = false ∧ t.cmd = s.cmd) ∨
      (t.phase = .idle ∧ t.rspValid = true ∧ t.rspWord = respond s.cmd ∧ t.cmd = s.cmd))

/-- What the host does with CMD_VALID and CMD_WORD while the block is BUSY has no effect on the command in flight
(20_memory.md R37). -/
def Obligations.CommandInFlightIgnoresThePorts : Prop :=
  ∀ (s : State) (v : Bool) (w : Word), s.phase = .busy → s.rst = false →
    settle (s.drive ⟨false, v, w⟩) (edge (s.drive ⟨false, v, w⟩)) = (settle s (edge s)).drive ⟨false, v, w⟩

/-- The response depends only on the command word: from any two idle states, whatever they hold, one command gives the
same visible state (00_scope.md R17). -/
def Obligations.ResponseDependsOnlyOnTheCommandWord : Prop :=
  ∀ (w : Word) (s s' : State), s.phase = .idle → s'.phase = .idle →
    let t := settle s (issue w s)
    let t' := settle s' (issue w s')
    (t.phase, t.rspValid, t.rspWord) = (.idle, true, respond w) ∧
    (t'.phase, t'.rspValid, t'.rspWord) = (t.phase, t.rspValid, t.rspWord)

/-- The responses of a host program come in the order of its commands, and the order of the commands changes no response
(20_memory.md R39). -/
def Obligations.ResponsesComeInOrder : Prop :=
  ∀ (ws : List Word) (s : State), s.phase = .idle →
    responses ws s = ws.map (fun w => .ok (respond w)) ∧
    ∀ (vs : List Word) (s' : State), ws.Perm vs → s'.phase = .idle →
      (ws.zip (responses ws s)).Perm (vs.zip (responses vs s'))

/-- Every step keeps the invariant: a valid response answers the latched command, RSP_VALID = 0 while BUSY, and a search
in progress is consistent. A step that faults leaves a state that meets it too (10_state.md R18, R30, R31). -/
def Obligations.EveryStepKeepsTheInvariant : Prop :=
  ∀ s : State, s.Inv →
    (∀ t, step s = .next t → t.Inv) ∧ (∀ f, step s = .fault f → f.after.Inv)

/-- Any sequence of transitions, under any inputs of the host, keeps the invariant (10_state.md R31). -/
def Obligations.EveryRunOfEdgesKeepsTheInvariant : Prop :=
  ∀ (ps : List Inputs) (s : State), s.Inv → (runEdges ps s).Inv

/-- The state after reset meets the invariant. -/
def Obligations.ResetStateMeetsTheInvariant : Prop :=
  State.reset.Inv

/-- The BUSY phase refines the atomic transaction: an accepted command, whatever the host presents meanwhile with RST = 0,
is BUSY for n internal steps, 1 <= n <= 553, and then shows the response that one atomic step gives
(10_state.md R32, R33; 43_decoder.md R85). That an internal step makes one probe is the model's choice (log 4). -/
def Obligations.BusyPhaseRefinesTheAtomicTransaction : Prop :=
  ∀ (s : State) (w : Word), s.phase = .idle →
    ∃ n, 1 ≤ n ∧ n ≤ 553 ∧
      (∀ ps : List Inputs, ps.length < n → (∀ p ∈ ps, p.rst = false) →
        let t := runEdges (⟨false, true, w⟩ :: ps) s
        t.phase = .busy ∧ t.rspValid = false ∧ t.cmd = w) ∧
      (∀ ps : List Inputs, ps.length = n → (∀ p ∈ ps, p.rst = false) →
        let t := runEdges (⟨false, true, w⟩ :: ps) s
        let u := settle s (issue w s)
        t.phase = .idle ∧ t.rspValid = true ∧ t.rspWord = respond w ∧ t.cmd = w ∧
        (u.phase, u.rspValid, u.rspWord, u.cmd) = (t.phase, t.rspValid, t.rspWord, t.cmd))

/-- A command presented while the block is BUSY is not accepted and not lost: while the host keeps its promise to present
it, with RST = 0, the block accepts that command as soon as the command in flight has completed
(70_reset_and_hazards.md R121; 10_state.md R33). The bound 553 counts internal steps, one probe each, which is the model's
choice (log 4). -/
def Obligations.PresentedCommandIsNotLost : Prop :=
  ∀ s : State, s.Inv → s.phase = .busy → s.rst = false → s.cmdValid = true →
    ∃ n, 1 ≤ n ∧ n ≤ 553 ∧
      (∀ ps : List Inputs, ps.length < n → (∀ p ∈ ps, p.rst = false) →
        acceptsCommand (driveRun ps s) = false ∧ (driveRun ps s).cmd = s.cmd) ∧
      (∀ ps : List Inputs, ps.length = n → (∀ p ∈ ps, p.rst = false) → LegalHost ps s →
        let u := driveRun ps s
        u.rspValid = true ∧ u.rspWord = respond s.cmd ∧ u.cmd = s.cmd ∧
        acceptsCommand u = true ∧ u.cmdWord = s.cmdWord ∧
        (settle u (edge u)).cmd = s.cmdWord ∧ (settle u (edge u)).phase = .busy)

/-- The host's read of RSP_WORD is refused exactly when RSP_VALID = 0; after a command it gives the response
(70_reset_and_hazards.md R122). -/
def Obligations.ReadIsRefusedWithoutAResponse : Prop :=
  (∀ s : State, s.rspValid = false → readResponse s = .error .noResponse) ∧
  (∀ s : State, s.rspValid = true → readResponse s = .ok s.rspWord) ∧
  (∀ s : State, s.Inv → s.phase = .busy → readResponse s = .error .noResponse) ∧
  (∀ (s : State) (w : Word), s.phase = .idle → readResponse (settle s (issue w s)) = .ok (respond w))

/-- The host's issue step is enabled only in PHASE = IDLE: while BUSY it is refused, so no response to the command in
flight is paired with the new word, and no run that issues it is clean; in IDLE it runs the issued word to its own
response (70_reset_and_hazards.md R121; that a model answers the refusal notReady is log 24). -/
def Obligations.IssueIsEnabledOnlyInIdle : Prop :=
  (∀ (s : State) (w : Word) (ws : List Word), s.phase = .busy →
    issue w s = .refused .notReady ∧ settle s (issue w s) = s ∧
    responses (w :: ws) s = List.replicate (ws.length + 1) (.error .notReady) ∧
    ¬ CleanRun (w :: ws) s) ∧
  (∀ (s : State) (w : Word), s.phase = .idle →
    (∀ r, issue w s ≠ .refused r) ∧
    (settle s (issue w s)).cmd = w ∧ (settle s (issue w s)).rspValid = true ∧
    (settle s (issue w s)).rspWord = respond w)
end

