-- ==== Sys2Proof/Laws/State.lean ====
section
/-! SUPPORT. What each update of the state does to each field. -/

namespace Sys2Proof.Machine

@[simp] theorem complete_rst (s : State) (r : Word) : (complete s r).rst = s.rst := rfl
@[simp] theorem complete_cmdValid (s : State) (r : Word) : (complete s r).cmdValid = s.cmdValid := rfl
@[simp] theorem complete_cmdWord (s : State) (r : Word) : (complete s r).cmdWord = s.cmdWord := rfl
@[simp] theorem complete_phase (s : State) (r : Word) : (complete s r).phase = .idle := rfl
@[simp] theorem complete_rspValid (s : State) (r : Word) : (complete s r).rspValid = true := rfl
@[simp] theorem complete_rspWord (s : State) (r : Word) : (complete s r).rspWord = r := rfl
@[simp] theorem complete_cmd (s : State) (r : Word) : (complete s r).cmd = s.cmd := rfl
@[simp] theorem complete_hid (s : State) (r : Word) : (complete s r).hid = freeSearchRegs s.freeCount := rfl
@[simp] theorem complete_freeCount (s : State) (r : Word) : (complete s r).freeCount = s.freeCount + 1 := rfl

@[simp] theorem respondIllegal_rst (s : State) : (respondIllegal s).rst = s.rst := rfl
@[simp] theorem respondIllegal_cmdValid (s : State) : (respondIllegal s).cmdValid = s.cmdValid := rfl
@[simp] theorem respondIllegal_cmdWord (s : State) : (respondIllegal s).cmdWord = s.cmdWord := rfl
@[simp] theorem respondIllegal_phase (s : State) : (respondIllegal s).phase = .idle := rfl
@[simp] theorem respondIllegal_rspValid (s : State) : (respondIllegal s).rspValid = true := rfl
@[simp] theorem respondIllegal_rspWord (s : State) : (respondIllegal s).rspWord = illegalResponse := rfl
@[simp] theorem respondIllegal_cmd (s : State) : (respondIllegal s).cmd = s.cmd := rfl
@[simp] theorem respondIllegal_hid (s : State) : (respondIllegal s).hid = s.hid := rfl
@[simp] theorem respondIllegal_freeCount (s : State) : (respondIllegal s).freeCount = s.freeCount := rfl

@[simp] theorem resetEdge_rst (s : State) : (resetEdge s).rst = s.rst := rfl
@[simp] theorem resetEdge_cmdValid (s : State) : (resetEdge s).cmdValid = s.cmdValid := rfl
@[simp] theorem resetEdge_cmdWord (s : State) : (resetEdge s).cmdWord = s.cmdWord := rfl
@[simp] theorem resetEdge_phase (s : State) : (resetEdge s).phase = .idle := rfl
@[simp] theorem resetEdge_rspValid (s : State) : (resetEdge s).rspValid = false := rfl
@[simp] theorem resetEdge_rspWord (s : State) : (resetEdge s).rspWord = 0x00000000#32 := rfl
@[simp] theorem resetEdge_cmd (s : State) : (resetEdge s).cmd = s.cmd := rfl
@[simp] theorem resetEdge_hid (s : State) : (resetEdge s).hid = freeSearchRegs s.freeCount := rfl
@[simp] theorem resetEdge_freeCount (s : State) : (resetEdge s).freeCount = s.freeCount + 1 := rfl

@[simp] theorem busyTick_rst (s : State) (h : SearchRegs) : (busyTick s h).rst = s.rst := rfl
@[simp] theorem busyTick_cmdValid (s : State) (h : SearchRegs) : (busyTick s h).cmdValid = s.cmdValid := rfl
@[simp] theorem busyTick_cmdWord (s : State) (h : SearchRegs) : (busyTick s h).cmdWord = s.cmdWord := rfl
@[simp] theorem busyTick_phase (s : State) (h : SearchRegs) : (busyTick s h).phase = s.phase := rfl
@[simp] theorem busyTick_rspValid (s : State) (h : SearchRegs) : (busyTick s h).rspValid = s.rspValid := rfl
@[simp] theorem busyTick_rspWord (s : State) (h : SearchRegs) : (busyTick s h).rspWord = Config.freeRspWord s.freeCount := rfl
@[simp] theorem busyTick_cmd (s : State) (h : SearchRegs) : (busyTick s h).cmd = s.cmd := rfl
@[simp] theorem busyTick_hid (s : State) (h : SearchRegs) : (busyTick s h).hid = h := rfl
@[simp] theorem busyTick_freeCount (s : State) (h : SearchRegs) : (busyTick s h).freeCount = s.freeCount + 1 := rfl

@[simp] theorem accept_rst (s : State) : (accept s).rst = s.rst := rfl
@[simp] theorem accept_cmdValid (s : State) : (accept s).cmdValid = s.cmdValid := rfl
@[simp] theorem accept_cmdWord (s : State) : (accept s).cmdWord = s.cmdWord := rfl
@[simp] theorem accept_phase (s : State) : (accept s).phase = .busy := rfl
@[simp] theorem accept_rspValid (s : State) : (accept s).rspValid = false := rfl
@[simp] theorem accept_rspWord (s : State) : (accept s).rspWord = Config.freeRspWord s.freeCount := rfl
@[simp] theorem accept_cmd (s : State) : (accept s).cmd = s.cmdWord := rfl
@[simp] theorem accept_hid (s : State) : (accept s).hid = loadSearch s.cmdWord s.hid := rfl
@[simp] theorem accept_freeCount (s : State) : (accept s).freeCount = s.freeCount + 1 := rfl

@[simp] theorem withFetchWord_rst (s : State) (nbits w : Nat) : (s.withFetchWord nbits w).rst = false := rfl
@[simp] theorem withFetchWord_cmdValid (s : State) (nbits w : Nat) : (s.withFetchWord nbits w).cmdValid = true := rfl
@[simp] theorem withFetchWord_cmdWord (s : State) (nbits w : Nat) : (s.withFetchWord nbits w).cmdWord = tableWord nbits w := rfl
@[simp] theorem withFetchWord_phase (s : State) (nbits w : Nat) : (s.withFetchWord nbits w).phase = .idle := rfl
@[simp] theorem withFetchWord_rspValid (s : State) (nbits w : Nat) : (s.withFetchWord nbits w).rspValid = s.rspValid := rfl
@[simp] theorem withFetchWord_rspWord (s : State) (nbits w : Nat) : (s.withFetchWord nbits w).rspWord = s.rspWord := rfl
@[simp] theorem withFetchWord_cmd (s : State) (nbits w : Nat) : (s.withFetchWord nbits w).cmd = s.cmd := rfl
@[simp] theorem withFetchWord_hid (s : State) (nbits w : Nat) : (s.withFetchWord nbits w).hid = s.hid := rfl
@[simp] theorem withFetchWord_freeCount (s : State) (nbits w : Nat) : (s.withFetchWord nbits w).freeCount = s.freeCount := rfl

@[simp] theorem drive_rst (s : State) (p : Inputs) : (s.drive p).rst = p.rst := rfl
@[simp] theorem drive_cmdValid (s : State) (p : Inputs) : (s.drive p).cmdValid = p.cmdValid := rfl
@[simp] theorem drive_cmdWord (s : State) (p : Inputs) : (s.drive p).cmdWord = p.cmdWord := rfl
@[simp] theorem drive_phase (s : State) (p : Inputs) : (s.drive p).phase = s.phase := rfl
@[simp] theorem drive_rspValid (s : State) (p : Inputs) : (s.drive p).rspValid = s.rspValid := rfl
@[simp] theorem drive_rspWord (s : State) (p : Inputs) : (s.drive p).rspWord = s.rspWord := rfl
@[simp] theorem drive_cmd (s : State) (p : Inputs) : (s.drive p).cmd = s.cmd := rfl
@[simp] theorem drive_hid (s : State) (p : Inputs) : (s.drive p).hid = s.hid := rfl
@[simp] theorem drive_freeCount (s : State) (p : Inputs) : (s.drive p).freeCount = s.freeCount := rfl

/-! The state after reset (70_reset_and_hazards.md R118). -/

@[simp] theorem reset_rst : State.reset.rst = false := rfl
@[simp] theorem reset_cmdValid : State.reset.cmdValid = false := rfl
@[simp] theorem reset_phase : State.reset.phase = .idle := rfl
@[simp] theorem reset_rspValid : State.reset.rspValid = false := rfl
@[simp] theorem reset_rspWord : State.reset.rspWord = 0x00000000#32 := rfl

/-! Driving the ports twice leaves the second inputs; driving what is driven changes nothing. -/

@[simp] theorem drive_drive (s : State) (p q : Inputs) : (s.drive p).drive q = s.drive q := rfl
@[simp] theorem drive_inputs (s : State) : s.drive s.inputs = s := rfl

end Sys2Proof.Machine
end

