-- ==== Sys2Proof/Laws/Ops.lean ====
section
/-! SUPPORT. What the shared operations and the transitions can do, said once: one equation for each case, and one
inversion lemma for each of searchStep, internalStep, edge, transact and step. Later proofs cite these instead of
unfolding. -/

namespace Sys2Proof.Machine

@[simp] theorem settle_next (s t : State) : settle s (.next t) = t := rfl

@[simp] theorem settle_fault (s : State) (f : Fault) : settle s (.fault f) = f.after := rfl

@[simp] theorem after_illegalCommand (w : Word) (t : State) : (Fault.illegalCommand w t).after = t := rfl

@[simp] theorem settle_refuse (s u : State) : settle s (refuse u) = respondIllegal u := rfl

theorem acceptsCommand_iff (s : State) :
    acceptsCommand s = true ↔ s.cmdValid = true ∧ s.phase = .idle ∧ s.rst = false := by
  simp [acceptsCommand, cmdReady]

theorem acceptsCommand_of_busy {s : State} (h : s.phase = .busy) : acceptsCommand s = false := by
  simp [acceptsCommand, cmdReady, h]

theorem completed_complete (s : State) (r : Word) : Completed s (complete s r) r :=
  ⟨rfl, rfl, rfl, rfl, rfl, rfl, rfl⟩

/-- Every command completes, with its response (30_encoding.md R47). -/
theorem exec_eq (i : Instr) (s : State) : exec i s = .next (complete s (respondInstr i)) := by
  cases i <;> rfl

theorem respond_of_decode {w : Word} {i : Instr} (h : decode w = .ok i) : respond w = respondInstr i := by
  simp [respond, h]

theorem respond_of_error {w : Word} {e : DecodeError} (h : decode w = .error e) : respond w = illegalResponse := by
  simp [respond, h]

theorem transact_ok {s : State} {i : Instr} (h : decode s.cmdWord = .ok i) :
    transact s = .next (complete (accept s) (respondInstr i)) := by
  simp [transact, h, exec_eq]

theorem transact_error {s : State} {e : DecodeError} (h : decode s.cmdWord = .error e) :
    transact s = .fault (.illegalCommand s.cmdWord (respondIllegal (accept s))) := by
  simp [transact, h, refuse]

/-- A transaction ends with the response to the presented command in RSP_WORD, refused or not (10_state.md R31). -/
theorem settle_transact (s u : State) :
    (settle u (transact s)).phase = .idle ∧ (settle u (transact s)).rspValid = true ∧
      (settle u (transact s)).rspWord = respond s.cmdWord ∧ (settle u (transact s)).cmd = s.cmdWord := by
  cases h : decode s.cmdWord with
  | ok i => simp [transact_ok h, respond_of_decode h]
  | error e => simp [transact_error h, respond_of_error h]

theorem step_of_accepts {s : State} (h : acceptsCommand s = true) : step s = transact s := by
  simp [step, h]

theorem step_of_not_accepts {s : State} (h : acceptsCommand s = false) : step s = edge s := by
  simp [step, h]

theorem edge_of_rst {s : State} (h : s.rst = true) : edge s = .next (resetEdge s) := by
  simp [edge, h]

theorem edge_of_busy {s : State} (hr : s.rst = false) (hp : s.phase = .busy) : edge s = internalStep s := by
  simp [edge, hr, hp]

theorem edge_of_accept {s : State} (hr : s.rst = false) (hp : s.phase = .idle) (hv : s.cmdValid = true) :
    edge s = .next (accept s) := by
  simp [edge, hr, hp, hv]

theorem edge_of_idle {s : State} (hr : s.rst = false) (hp : s.phase = .idle) (hv : s.cmdValid = false) :
    edge s = .next s := by
  simp [edge, hr, hp, hv]

/-- In IDLE an issue step is the transaction of the issued word. -/
theorem issue_of_idle {s : State} (w : Word) (h : s.phase = .idle) :
    issue w s = transact (s.drive ⟨false, true, w⟩) := by
  have ha : acceptsCommand (s.drive ⟨false, true, w⟩) = true := (acceptsCommand_iff _).2 ⟨rfl, h, rfl⟩
  simp [issue, ha, step_of_accepts ha]

/-- In BUSY an issue step is refused (70_reset_and_hazards.md R121). -/
theorem issue_of_busy {s : State} (w : Word) (h : s.phase = .busy) : issue w s = .refused .notReady := by
  have ha : acceptsCommand (s.drive ⟨false, true, w⟩) = false := acceptsCommand_of_busy h
  simp [issue, ha]

/-- What one issue step can do: a refusal in BUSY; in IDLE, the completion of the issued word, clean or as the fault
IllegalCommand. -/
theorem issue_cases (w : Word) (s : State) :
    (s.phase = .busy ∧ issue w s = .refused .notReady) ∨
    (s.phase = .idle ∧ ∃ i, decode w = .ok i ∧
      issue w s = .next (complete (accept (s.drive ⟨false, true, w⟩)) (respondInstr i))) ∨
    (s.phase = .idle ∧ ∃ e, decode w = .error e ∧
      issue w s = .fault (.illegalCommand w (respondIllegal (accept (s.drive ⟨false, true, w⟩))))) := by
  cases hp : s.phase with
  | busy => exact .inl ⟨rfl, issue_of_busy w hp⟩
  | idle =>
    rw [issue_of_idle w hp]
    cases hd : decode w with
    | ok i => exact .inr (.inl ⟨rfl, i, rfl, transact_ok (s := s.drive ⟨false, true, w⟩) hd⟩)
    | error e => exact .inr (.inr ⟨rfl, e, rfl, transact_error (s := s.drive ⟨false, true, w⟩) hd⟩)

/-- An issue step from IDLE leaves the visible state (IDLE, 1, respond w) and CMD = w. -/
theorem settle_issue {s : State} (u : State) (w : Word) (h : s.phase = .idle) :
    (settle u (issue w s)).phase = .idle ∧ (settle u (issue w s)).rspValid = true ∧
      (settle u (issue w s)).rspWord = respond w ∧ (settle u (issue w s)).cmd = w := by
  rw [issue_of_idle w h]
  exact settle_transact (s.drive ⟨false, true, w⟩) u

theorem responses_cons_of_busy {s : State} (w : Word) (ws : List Word) (h : s.phase = .busy) :
    responses (w :: ws) s = .error .notReady :: responses ws s := by
  simp [responses, issue_of_busy w h]

/-- In IDLE the first response read is that of the first command, and the rest follow from the state it leaves. -/
theorem responses_cons_of_idle {s : State} (w : Word) (ws : List Word) (h : s.phase = .idle) :
    responses (w :: ws) s = .ok (respond w) :: responses ws (settle s (issue w s)) := by
  have ht := settle_issue s w h
  rcases issue_cases w s with ⟨hb, _⟩ | ⟨_, i, _, hi⟩ | ⟨_, e, _, hi⟩
  · simp [h] at hb
  all_goals
    rw [hi] at ht ⊢
    simp only [responses, hi, readResponse, settle_next, settle_fault] at ht ⊢
    simp only [ht, if_true]

/-- What one internal step of a search can do. -/
theorem searchStep_cases (s : State) (finish : Bool → Word23 → Word) :
    (s.hid.found = true ∧ searchStep s finish = complete s (finish true s.hid.codeword)) ∨
    (s.hid.found = false ∧ s.hid.accepting = true ∧
      searchStep s finish = busyTick s { s.hid with found := true }) ∨
    (s.hid.found = false ∧ s.hid.accepting = false ∧ s.hid.lastProbe = true ∧
      searchStep s finish = complete s (finish false (word23Of s.hid.rcv))) ∨
    (s.hid.found = false ∧ s.hid.accepting = false ∧ s.hid.lastProbe = false ∧
      searchStep s finish = busyTick s s.hid.advance) := by
  unfold searchStep
  cases s.hid.found <;> cases s.hid.accepting <;> cases s.hid.lastProbe <;> simp

/-- What one internal step of the BUSY phase can do, for a command that is not refused. -/
theorem internalStep_ok {s : State} {i : Instr} (h : decode s.cmd = .ok i) :
    (∃ x, i = .dec x ∧ internalStep s = .next (searchStep s (decResponse (word23Of s.hid.rcv)))) ∨
    (∃ x, i = .decx x ∧ internalStep s = .next (searchStep s (decxResponse (word24Of s.hid.rcv)))) ∨
    ((∀ x, i ≠ .dec x ∧ i ≠ .decx x) ∧ internalStep s = .next (complete s (respondInstr i))) := by
  cases i <;> simp [internalStep, h, respondInstr]

theorem internalStep_error {s : State} {e : DecodeError} (h : decode s.cmd = .error e) :
    internalStep s = .fault (.illegalCommand s.cmd (respondIllegal s)) := by
  simp [internalStep, h, refuse]

/-- What one transition can do (10_state.md R31). -/
theorem edge_cases (s : State) :
    (s.rst = true ∧ edge s = .next (resetEdge s)) ∨
    (s.rst = false ∧ s.phase = .idle ∧ s.cmdValid = true ∧ edge s = .next (accept s)) ∨
    (s.rst = false ∧ s.phase = .idle ∧ s.cmdValid = false ∧ edge s = .next s) ∨
    (s.rst = false ∧ s.phase = .busy ∧ edge s = internalStep s) := by
  cases hr : s.rst <;> cases hp : s.phase <;> cases hv : s.cmdValid <;> simp [edge, hr, hp, hv]

/-- What one step can do: a whole transaction, or a transition that accepts nothing. -/
theorem step_cases (s : State) :
    (s.cmdValid = true ∧ s.phase = .idle ∧ s.rst = false ∧ step s = transact s) ∨
    (s.rst = true ∧ step s = .next (resetEdge s)) ∨
    (s.rst = false ∧ s.phase = .idle ∧ s.cmdValid = false ∧ step s = .next s) ∨
    (s.rst = false ∧ s.phase = .busy ∧ step s = internalStep s) := by
  cases hr : s.rst <;> cases hp : s.phase <;> cases hv : s.cmdValid <;>
    simp [step, acceptsCommand, cmdReady, edge, hr, hp, hv]

end Sys2Proof.Machine
end

