-- ==== Sys2Proof/Laws/PerInstr.lean ====
section
/-! SUPPORT. Facts about every command as syntax, one lemma a constructor.
EncodedFields: the fields of a command's word are its opcode, 0000 and its operand (30_encoding.md R45, R48). -/

namespace Sys2Proof.Laws

/-- The bits of a command word (30_encoding.md R45). -/
theorem getLsbD_command (op : BitVec 4) (x : Operand) (j : Nat) :
    (op ++ 0#4 ++ x : Word).getLsbD j =
      if j < 24 then x.getLsbD j else if j - 24 < 4 then false else op.getLsbD (j - 24 - 4) := by
  refine (BitVec.getLsbD_append (x := op ++ 0#4) (y := x)).trans ?_
  split
  · rfl
  · refine (BitVec.getLsbD_append (x := op) (y := 0#4)).trans ?_
    simp

theorem opField_append (op : BitVec 4) (x : Operand) : opField (op ++ 0#4 ++ x) = op := by
  apply BitVec.eq_of_getLsbD_eq
  intro j hj
  simp only [opField, BitVec.getLsbD_extractLsb', getLsbD_command, hj]
  simp [show ¬ 28 + j < 24 by omega, show ¬ 28 + j - 24 < 4 by omega, show 28 + j - 24 - 4 = j by omega]

theorem rsvField_append (op : BitVec 4) (x : Operand) : rsvField (op ++ 0#4 ++ x) = 0#4 := by
  apply BitVec.eq_of_getLsbD_eq
  intro j hj
  simp only [rsvField, BitVec.getLsbD_extractLsb', getLsbD_command, hj]
  simp [show ¬ 24 + j < 24 by omega, hj]

theorem operandField_append (op : BitVec 4) (x : Operand) : operandField (op ++ 0#4 ++ x) = x := by
  apply BitVec.eq_of_getLsbD_eq
  intro j hj
  simp only [operandField, BitVec.getLsbD_extractLsb', getLsbD_command, hj]
  simp [hj]

/-- The fields of a command's word. -/
def EncodedFields.Statement (i : Instr) : Prop :=
  opField (encode i) = i.mnemonic.opcode ∧ rsvField (encode i) = 0#4 ∧ operandField (encode i) = i.operand

theorem EncodedFields.enc (x : Operand) : EncodedFields.Statement (.enc x) :=
  ⟨opField_append _ x, rsvField_append _ x, operandField_append _ x⟩

theorem EncodedFields.encx (x : Operand) : EncodedFields.Statement (.encx x) :=
  ⟨opField_append _ x, rsvField_append _ x, operandField_append _ x⟩

theorem EncodedFields.syn (x : Operand) : EncodedFields.Statement (.syn x) :=
  ⟨opField_append _ x, rsvField_append _ x, operandField_append _ x⟩

theorem EncodedFields.wgt (x : Operand) : EncodedFields.Statement (.wgt x) :=
  ⟨opField_append _ x, rsvField_append _ x, operandField_append _ x⟩

theorem EncodedFields.dec (x : Operand) : EncodedFields.Statement (.dec x) :=
  ⟨opField_append _ x, rsvField_append _ x, operandField_append _ x⟩

theorem EncodedFields.decx (x : Operand) : EncodedFields.Statement (.decx x) :=
  ⟨opField_append _ x, rsvField_append _ x, operandField_append _ x⟩

end Sys2Proof.Laws
end

