-- ==== Sys2Proof/Laws/Response.lean ====
section
/-! SUPPORT. The fields of an assembled response (30_encoding.md R51; 10_state.md R21), and the linearity of one division
iteration (40_encoder.md R59). -/

namespace Sys2Proof.Machine

/-- The bits of a response (30_encoding.md R51). -/
theorem getLsbD_rsp (res : Word24) (st : DecodeStatus) (pm : Bool) (j : Nat) :
    (rsp res st pm).getLsbD j =
      if j < 24 then res.getLsbD j
      else if j - 24 < 2 then st.bits.getLsbD (j - 24)
      else if j - 24 - 2 < 1 then (BitVec.ofBool pm).getLsbD (j - 24 - 2)
      else false := by
  refine (BitVec.getLsbD_append (x := 0b0000#4 ++ 0b0#1 ++ BitVec.ofBool pm ++ st.bits) (y := res)).trans ?_
  split
  · rfl
  refine (BitVec.getLsbD_append (x := 0b0000#4 ++ 0b0#1 ++ BitVec.ofBool pm) (y := st.bits)).trans ?_
  split
  · rfl
  refine (BitVec.getLsbD_append (x := 0b0000#4 ++ 0b0#1) (y := BitVec.ofBool pm)).trans ?_
  split
  · rfl
  · exact BitVec.getLsbD_zero

@[simp] theorem resultField_rsp (res : Word24) (st : DecodeStatus) (pm : Bool) : resultField (rsp res st pm) = res := by
  apply BitVec.eq_of_getLsbD_eq
  intro j hj
  simp only [resultField, BitVec.getLsbD_extractLsb', getLsbD_rsp, hj]
  simp [hj]

@[simp] theorem statusField_rsp (res : Word24) (st : DecodeStatus) (pm : Bool) :
    statusField (rsp res st pm) = st.bits := by
  apply BitVec.eq_of_getLsbD_eq
  intro j hj
  simp only [statusField, BitVec.getLsbD_extractLsb', getLsbD_rsp, hj]
  simp [hj]

@[simp] theorem pmismField_rsp (res : Word24) (st : DecodeStatus) (pm : Bool) : pmismField (rsp res st pm) = pm := by
  simp only [pmismField, getLsbD_rsp]
  simp

@[simp] theorem illegalField_rsp (res : Word24) (st : DecodeStatus) (pm : Bool) :
    illegalField (rsp res st pm) = false := by
  simp only [illegalField, getLsbD_rsp]
  simp

@[simp] theorem topField_rsp (res : Word24) (st : DecodeStatus) (pm : Bool) : topField (rsp res st pm) = 0#4 := by
  apply BitVec.eq_of_getLsbD_eq
  intro j hj
  simp only [topField, BitVec.getLsbD_extractLsb', getLsbD_rsp]
  simp [show ¬ 28 + j < 24 by omega, show ¬ 28 + j - 24 < 2 by omega, show ¬ 28 + j - 24 - 2 < 1 by omega]

theorem readStatus_rsp (res : Word24) (st : DecodeStatus) (pm : Bool) : readStatus (rsp res st pm) = .ok st := by
  cases st <;> simp [readStatus, DecodeStatus.bits]

/-- One division iteration is linear: G is applied under the control of bit 0 (41_syndrome.md R70). -/
theorem divStep_xor (a b : Word23) : divStep (a ^^^ b) = divStep a ^^^ divStep b := by
  simp only [divStep, BitVec.getLsbD_xor]
  apply BitVec.eq_of_getLsbD_eq
  intro j _
  cases a.getLsbD 0 <;> cases b.getLsbD 0 <;>
    simp only [BitVec.getLsbD_ushiftRight, BitVec.getLsbD_xor, bne_self_eq_false, Bool.true_bne, Bool.false_bne,
      Bool.not_false, if_true, if_false, Bool.false_eq_true] <;>
    cases a.getLsbD (1 + j) <;> cases b.getLsbD (1 + j) <;> cases (generator.setWidth 23).getLsbD (1 + j) <;> rfl

theorem divSteps_xor (n : Nat) (a b : Word23) : divSteps n (a ^^^ b) = divSteps n a ^^^ divSteps n b := by
  induction n generalizing a b with
  | zero => rfl
  | succ n ih => simp [divSteps, divStep_xor, ih]

end Sys2Proof.Machine
end

