-- ==== Sys2Proof/Laws/Search.lean ====
section
/-! SUPPORT. The search registers at the start of a search (10_state.md R30; 43_decoder.md R80), and the invariant under
the host's driving of the ports. -/

namespace Sys2Proof.Machine

theorem startSearch_eq_atProbe (x : Operand) : startSearch x = SearchRegs.atProbe x ⟨0, none⟩ false := rfl

theorem Probe.number_pos (p : Probe) : 1 ≤ p.number := by
  rcases p with ⟨i, _ | t⟩ <;> simp only [Probe.number] <;> omega

/-- A search that has just started stands at the first probe, with none before it. -/
theorem startSearch_inv (x : Operand) : SearchInv x (startSearch x) := by
  refine ⟨⟨0, none⟩, startSearch_eq_atProbe x, fun q hq => ?_, fun h => ?_⟩
  · have h1 : Probe.number ⟨0, none⟩ = 1 := rfl
    have h2 := q.number_pos
    omega
  · exact absurd h Bool.false_ne_true

/-- Acceptance loads the operand of a decode. -/
theorem loadSearch_of_decode {w : Word} {x : Operand} (h : SearchRegs)
    (hd : decode w = .ok (.dec x) ∨ decode w = .ok (.decx x)) : loadSearch w h = startSearch x := by
  rcases hd with hd | hd <;> simp [loadSearch, hd]

/-- The invariant does not look at the input ports. -/
theorem drive_inv {s : State} (h : s.Inv) (p : Inputs) : (s.drive p).Inv :=
  ⟨h.busy_no_response, h.response, h.search⟩

end Sys2Proof.Machine
end

