-- ==== Sys2Proof/Tests/Slice0.lean ====
section
/-! SUPPORT. Tests: words written out from the encoding, the checks of WellFormed, vectors of spec/95_test_vectors.md, and
a witness for the hypotheses of every statement. Expected results are the spec's (the rule or section is named). -/

namespace Sys2Proof.Tests

open Sys2Proof.Machine

/-! Decoding: one word a command, bit by bit from 30_encoding.md R45 and R48. -/

theorem test_decode_enc : decode 0b0001_0000_000000000000000111111111#32 = .ok (.enc 0x0001FF#24) := by decide
theorem test_decode_encx : decode 0b0010_0000_101010111100000100100011#32 = .ok (.encx 0xABC123#24) := by decide
theorem test_decode_syn : decode 0b0011_0000_100000000000000000000001#32 = .ok (.syn 0x800001#24) := by decide
theorem test_decode_wgt : decode 0b0100_0000_000100100011010001010110#32 = .ok (.wgt 0x123456#24) := by decide
theorem test_decode_dec : decode 0b0101_0000_011111010010100111111110#32 = .ok (.dec 0x7D29FE#24) := by decide
theorem test_decode_decx : decode 0b0110_0000_101111010011000110110111#32 = .ok (.decx 0xBD31B7#24) := by decide

/-! Refused words (95_test_vectors.md L2.7). -/

theorem test_refuse_zero : decode 0x00000000#32 = .error (.reservedOpcode 0x0#4) := by decide
theorem test_refuse_seven : decode 0x70000000#32 = .error (.reservedOpcode 0x7#4) := by decide
theorem test_refuse_rsv : decode 0x41000000#32 = .error (.reservedBits 0x1#4) := by decide
theorem test_refuse_both : decode 0xFF000000#32 = .error (.reservedBits 0xF#4) := by decide
theorem test_table_word : decodeTableWord 32 0x503D31B7 = some (.dec 0x3D31B7#24) := by decide
theorem test_encode_decx : encode (.decx 0x800007#24) = 0x60800007#32 := by decide

/-! The checks of WellFormed: an ill-formed term for each (30_encoding.md R46, R57). -/

theorem test_smoke_wide_operand : (AsmLine.command .wgt 0x1000000).wellFormed = false := by decide
theorem test_smoke_widest_operand : (AsmLine.command .wgt 0xFFFFFF).wellFormed = true := by decide
theorem test_smoke_wide_word : (AsmLine.word 0x100000000).wellFormed = false := by decide
theorem test_smoke_widest_word : (AsmLine.word 0xFFFFFFFF).wellFormed = true := by decide
theorem test_smoke_contract_enc : (Instr.enc 0x001000#24).inContract = false := by decide
theorem test_smoke_contract_encx : (Instr.encx 0xABC123#24).inContract = false := by decide
theorem test_smoke_contract_syn : (Instr.syn 0x800000#24).inContract = false := by decide
theorem test_smoke_contract_dec : (Instr.dec 0x800000#24).inContract = false := by decide
theorem test_smoke_contract_decx : (Instr.decx 0xFFFFFF#24).inContract = true := by decide

/-! The command notation (30_encoding.md R57). -/

theorem test_assemble_example : assembleLine "ENC 0x1FF ; -> 0x003D21FF".toList = some 0x100001FF#32 := by
  decide +kernel
theorem test_assemble_decimal : assembleLine "DECX 12".toList = some 0x6000000C#32 := by decide +kernel
theorem test_assemble_wide : assembleLine "DECX 0x1000000".toList = none := by decide +kernel

/-! One step on one command from reset (the vectors of 95_test_vectors.md L2). -/

/-- The state in which the host presents a word to the reset block. -/
def presented (w : Nat) : State := State.reset.withFetchWord 32 w

/-- The response after one step on a word. -/
def responseOf (w : Nat) : Option Word :=
  match step (presented w) with
  | .next t => some t.rspWord
  | _ => none

theorem test_enc_scenario : responseOf 0x100001FF = some 0x003D21FF#32 := by decide +kernel
theorem test_enc_high_bits : responseOf 0x10ABC123 = some 0x00085123#32 := by decide +kernel
theorem test_encx_parity_one : responseOf 0x20000800 = some 0x00D71800#32 := by decide +kernel
theorem test_encx_parity_zero : responseOf 0x20000555 = some 0x004F4555#32 := by decide +kernel
theorem test_syn_scenario : responseOf 0x303D31B7 = some 0x001E9000#32 := by decide +kernel
theorem test_syn_bit_23 : responseOf 0x30800000 = some 0x00000000#32 := by decide +kernel
theorem test_wgt_digits : responseOf 0x40123456 = some 0x00000009#32 := by decide +kernel
theorem test_wgt_bit_23 : responseOf 0x40800000 = some 0x00000001#32 := by decide +kernel
theorem test_dec_miscorrected : responseOf 0x503D21F0 = some 0x011D33F0#32 := by decide +kernel
theorem test_dec_bit_23 : responseOf 0x50BD21FF = some 0x003D21FF#32 := by decide +kernel
theorem test_decx_detected : responseOf 0x60BD21F0 = some 0x06BD21F0#32 := by decide +kernel
theorem test_decx_parity_only : responseOf 0x603D21FF = some 0x01BD21FF#32 := by decide +kernel

/-- A refused word: the fault, and the response in the state it leaves (95_test_vectors.md L2.7). -/
theorem test_refused_response :
    step (presented 0x1F0001FF) =
      .fault (.illegalCommand 0x1F0001FF#32 (respondIllegal (accept (presented 0x1F0001FF)))) ∧
    (respondIllegal (accept (presented 0x1F0001FF))).rspWord = 0x08000000#32 := ⟨rfl, rfl⟩

/-! Single internal steps of the search (43_decoder.md R80, R81). -/

/-- A DEC accepted and BUSY. -/
def busyDec (x : Operand) : State := accept (presented (encode (.dec x)).toNat)

/-- DEC 0x000001: probe (0, -1) rejects (its syndrome is 0x2E3000), so the registers go on to probe (0, 0). -/
theorem test_search_advances :
    (settle State.reset (internalStep (busyDec 0x000001#24))).hid.t = 1#5 ∧
    (settle State.reset (internalStep (busyDec 0x000001#24))).hid.wp = 0#23 := by decide +kernel

/-- DEC 0x001000: probe (0, -1) accepts, FOUND is set. -/
theorem test_search_accepts :
    (settle State.reset (internalStep (busyDec 0x001000#24))).hid.found = true := by decide +kernel

/-! Witnesses: for every statement with hypotheses, states and operands that meet them. -/

theorem zero_isCodeword : IsCodeword 0#23 := ⟨0#12, by decide +kernel⟩

theorem scenario_isCodeword : IsCodeword 0x3D21FF#23 := ⟨0x1FF#12, by decide +kernel⟩

theorem busyDec_inv (x : Operand) (hx : decode (presented (encode (.dec x)).toNat).cmdWord = .ok (.dec x)) :
    (busyDec x).Inv where
  busy_no_response := fun _ => rfl
  response := fun h => absurd h (by simp [busyDec])
  search := fun _ y hy => by
    have he : (busyDec x).cmd = (presented (encode (.dec x)).toNat).cmdWord := rfl
    have hxy : y = x := by
      rw [he, hx] at hy
      rcases hy with hy | hy <;> simp_all
    subst hxy
    have hh : (busyDec y).hid = startSearch y := loadSearch_of_decode _ (.inl hx)
    rw [hh]
    exact startSearch_inv y

theorem wit_busy_inv : (busyDec 0x7D29FE#24).Inv := busyDec_inv _ (by decide)

theorem presented_inv (w : Nat) : (presented w).Inv where
  busy_no_response := fun h => absurd h (by simp [presented])
  response := fun h => absurd h (by simp [presented])
  search := fun h => absurd h (by simp [presented])

/-- EncCompletes to DecxCompletes, second clauses; OperationsThatDoNotDecode: the outcomes exist. -/
theorem wit_exec_next (i : Instr) : ∃ t, exec i State.reset = .next t := ⟨_, exec_eq i _⟩

/-- AssemblyNotation: both sides of the bound. -/
theorem wit_assembly_bounds : (0xFFFFFF : Nat) < 2 ^ 24 ∧ 2 ^ 24 ≤ (0x1000000 : Nat) ∧ (0xFFFFFFFF : Nat) < 2 ^ 32 := by
  decide

/-- SyndromeIsLinear, SearchDependsOnlyOnTheError: a codeword other than 0. -/
theorem wit_codeword : IsCodeword 0x3D21FF#23 ∧ (0x3D21FF#23 : Word23) ≠ 0 := ⟨scenario_isCodeword, by decide⟩

/-- WindowWordIsItsOwnSyndrome: the lowest and the highest window bit. -/
theorem wit_window : (0x001000#23).extractLsb' 0 12 = 0#12 ∧ (0x400000#23).extractLsb' 0 12 = 0#12 := by decide

/-- RotationLaws: the largest rotation, a codeword. -/
theorem wit_rotation : 22 < 23 ∧ IsCodeword 0x3D21FF#23 := ⟨by decide, scenario_isCodeword⟩

/-- EncResultsAreCodewords, EncxResultsHaveEvenWeight: a nonzero result. -/
theorem wit_nonzero_result : encResult 0x001#12 ≠ 0#24 ∧ encxResult 0x001#12 ≠ 0#24 := by decide +kernel

/-- EncCompletes, EncxCompletes, SynCompletes: the window shifts at both ends of the range. -/
theorem wit_window_shifts : (1#24 <<< 12 = 0x001000#24) ∧ (1#24 <<< 22 = 0x400000#24) := by decide

/-- OperandBitsAboveTheWidthAreIgnored: operands that agree on the bits read and differ above. -/
theorem wit_ignored_bits :
    (0xABC123#24).toNat % 2 ^ Mnemonic.enc.operandWidth = (0x000123#24).toNat % 2 ^ Mnemonic.enc.operandWidth ∧
    (0xBD21FF#24).toNat % 2 ^ Mnemonic.dec.operandWidth = (0x3D21FF#24).toNat % 2 ^ Mnemonic.dec.operandWidth := by
  decide

/-- ResponseFieldsAreLegal, UncorrectableReturnsTheReceivedWord: responses with STATUS 01, with STATUS 10 and PMISM, and
with ILLEGAL (95_test_vectors.md L2.5 to L2.7). -/
theorem wit_response_fields :
    respond 0x50000001#32 = 0x01000000#32 ∧ respond 0x6000000F#32 = 0x0600000F#32 ∧
    respond 0x00000000#32 = 0x08000000#32 := by decide +kernel

/-- OperationsThatDoNotDecodeReportNoError: each of the four is in the list. -/
theorem wit_non_decoding (x : Operand) :
    Instr.enc x ∈ [Instr.enc x, .encx x, .syn x, .wgt x] ∧ Instr.wgt x ∈ [Instr.enc x, .encx x, .syn x, .wgt x] := by
  simp

/-- FirstAcceptingProbeEndsTheSearch, AcceptedProbeGivesANearCodeword, AtMostThreeBitsAreFlipped: a probe that accepts,
by a trial flip, and a search that finds (95_test_vectors.md L2.5, DEC 0x000001). -/
theorem wit_accepting_probe :
    accepts 0x000001#23 ⟨0, some 0⟩ = true ∧ (search 0x000001#23).probe = some ⟨0, some 0⟩ ∧
    (search 0x000001#23).found = true := by decide +kernel

/-- ResultIsIndependentOfOrderAndDirection: an accepting probe of a left and of a right rotation, of one operand. -/
theorem wit_right_probe :
    accepts ((0x000002#24).extractLsb' 0 23) ⟨0, some 1⟩ = true ∧
    weight (syndrome (flipTrial (rotr23 ((0x000002#24).extractLsb' 0 23) 1) (some 0))) ≤ threshold (some 0) := by
  decide +kernel

/-- EveryWordHasExactlyOneNearestCodeword, DecodesAreDefinedByTheNearestCodeword: a word at distance 3 of a codeword. -/
theorem wit_nearest : IsNearest ((0x3D31B7#24).extractLsb' 0 23) 0x3D21FF#23 := ⟨scenario_isCodeword, by decide +kernel⟩

/-- DecCorrectsUpToThreeErrors: each clause at its boundary, 0, 1, 3 and 4 errors, and an error that is a codeword. -/
theorem wit_dec_errors :
    (0x3D21FF#24).extractLsb' 0 23 = (encResult 0x1FF#12).extractLsb' 0 23 ^^^ 0#23 ∧ popcount (0#23) = 0 ∧
    (0x3D21FE#24).extractLsb' 0 23 = (encResult 0x1FF#12).extractLsb' 0 23 ^^^ 0x000001#23 ∧ popcount (0x000001#23) = 1 ∧
    (0x3D31B7#24).extractLsb' 0 23 = (encResult 0x1FF#12).extractLsb' 0 23 ^^^ 0x001048#23 ∧ popcount (0x001048#23) = 3 ∧
    (0x3D21F0#24).extractLsb' 0 23 = (encResult 0x1FF#12).extractLsb' 0 23 ^^^ 0x00000F#23 ∧ popcount (0x00000F#23) = 4 ∧
    (0x2E3001#24).extractLsb' 0 23 = (encResult 0x000#12).extractLsb' 0 23 ^^^ 0x2E3001#23 ∧ popcount (0x2E3001#23) = 7 ∧
    (0x2E3001#24).extractLsb' 0 23 = codeword23 0x001#12 := by decide +kernel

/-- DecCorrectsUpToThreeErrors: a received word that is no codeword. -/
theorem wit_not_codeword : ¬ IsCodeword 0x3D21F0#23 := by
  rintro ⟨d, hd⟩
  have hdata : d = 0x1F0#12 := by
    have h := congrArg (fun c : Word23 => c.extractLsb' 0 12) hd
    have hc : (codeword23 d).extractLsb' 0 12 = d := by
      apply BitVec.eq_of_getLsbD_eq
      intro j hj
      rw [BitVec.getLsbD_extractLsb']
      simp only [codeword23, hj, Nat.zero_add]
      refine (congrArg (true && ·) BitVec.getLsbD_append).trans ?_
      simp [hj]
    simp only [hc] at h
    rw [← h]
    decide
  subst hdata
  exact absurd hd (by decide +kernel)

/-- DecxCorrectsThreeAndDetectsFourErrors: patterns with 0, 1, 3 and 4 bits, the parity bit among them. -/
theorem wit_decx_errors :
    popcount (0#24) = 0 ∧ popcount (0x800000#24) = 1 ∧ popcount (0x800003#24) = 3 ∧ popcount (0x800007#24) = 4 := by
  decide +kernel

/-- StepRunsTheDecodedCommand. -/
theorem wit_step_runs :
    (presented 0x6000000F).rst = false ∧ (presented 0x6000000F).phase = .idle ∧ (presented 0x6000000F).cmdValid = true ∧
    decode (presented 0x6000000F).cmdWord = .ok (.decx 0x00000F#24) := ⟨rfl, rfl, rfl, by decide⟩

/-- RefusedCommandRespondsIllegal: a reserved OP at each end of its ranges, and a RSV. -/
theorem wit_refused :
    (presented 0x00FFFFFF).phase = .idle ∧ decode (presented 0x00FFFFFF).cmdWord = .error (.reservedOpcode 0x0#4) ∧
    decode (presented 0x70000000).cmdWord = .error (.reservedOpcode 0x7#4) ∧
    decode (presented 0xF0000000).cmdWord = .error (.reservedOpcode 0xF#4) ∧
    decode (presented 0x61000000).cmdWord = .error (.reservedBits 0x1#4) := ⟨rfl, by decide, by decide, by decide, by decide⟩

/-- CleanRunsIssueNoRefusedWord, ResponseDependsOnlyOnTheCommandWord, ResponsesComeInOrder,
BusyPhaseRefinesTheAtomicTransaction, ReadIsRefusedWithoutAResponse: an idle state; two programs that are permutations. -/
theorem wit_idle : State.reset.phase = .idle ∧ (presented 0).phase = .idle ∧
    [0x10000001#32, 0x00000000#32].Perm [0x00000000#32, 0x10000001#32] := ⟨rfl, rfl, by decide⟩

/-- IllegalCommandIsTheOnlyFault, EveryStepKeepsTheInvariant: a step that faults, from a state that meets the
invariant, idle and busy. -/
theorem wit_fault :
    (presented 0x00000000).Inv ∧
    (∃ f, step (presented 0x00000000) = .fault f) ∧ (∃ f, step (accept (presented 0x00000000)) = .fault f) :=
  ⟨presented_inv _, ⟨_, rfl⟩, ⟨_, rfl⟩⟩

/-- EveryStepKeepsTheInvariant: a step that goes on, from a busy search. -/
theorem wit_next : (busyDec 0x7D29FE#24).Inv ∧ ∃ t, step (busyDec 0x7D29FE#24) = .next t :=
  ⟨wit_busy_inv, ⟨_, rfl⟩⟩

/-- ResetAbandonsTheCommand: RST = 1 on a busy search (95_test_vectors.md P5). -/
theorem wit_reset_busy :
    ((busyDec 0x7D29FE#24).drive ⟨true, false, 0#32⟩).rst = true ∧
    ((busyDec 0x7D29FE#24).drive ⟨true, false, 0#32⟩).phase = .busy := ⟨rfl, rfl⟩

/-- IdleBlockDoesNoWork. -/
theorem wit_idle_no_command :
    State.reset.rst = false ∧ State.reset.phase = .idle ∧ State.reset.cmdValid = false := ⟨rfl, rfl, rfl⟩

/-- VisibleStateTransitions: a state that meets the invariant for each clause: RST = 1, a command presented, none
presented, BUSY. -/
theorem wit_visible :
    ((presented 0x50000001).drive ⟨true, true, 0#32⟩).Inv ∧
    (presented 0x50000001).Inv ∧ (presented 0x50000001).cmdValid = true ∧ (presented 0x50000001).rst = false ∧
    ((presented 0x50000001).drive ⟨false, false, 0#32⟩).Inv ∧
    (busyDec 0x7D29FE#24).Inv ∧ (busyDec 0x7D29FE#24).rst = false ∧ (busyDec 0x7D29FE#24).phase = .busy :=
  ⟨drive_inv (presented_inv _) _, presented_inv _, rfl, rfl, drive_inv (presented_inv _) _, wit_busy_inv, rfl, rfl⟩

/-- CommandInFlightIgnoresThePorts, PresentedCommandIsNotLost: BUSY, RST = 0, a command presented, the invariant. -/
theorem wit_busy_presented :
    (busyDec 0x7D29FE#24).Inv ∧ (busyDec 0x7D29FE#24).phase = .busy ∧ (busyDec 0x7D29FE#24).rst = false ∧
    (busyDec 0x7D29FE#24).cmdValid = true := ⟨wit_busy_inv, rfl, rfl, rfl⟩

/-- PresentedCommandIsNotLost: a host that keeps presenting the command is legal, for any number of transitions. -/
theorem wit_legal_host (n : Nat) (s : State) : LegalHost (List.replicate n s.inputs) s := by
  suffices h : ∀ u : State, u.cmdValid = s.cmdValid → u.cmdWord = s.cmdWord →
      LegalHost (List.replicate n s.inputs) u from h s rfl rfl
  induction n with
  | zero => intros; trivial
  | succ n ih =>
    intro u hv hw
    exact ⟨fun h _ => ⟨hv.symm.trans h, hw.symm⟩, ih _ rfl rfl⟩

/-- BusyPhaseRefinesTheAtomicTransaction, PresentedCommandIsNotLost: inputs of any length with RST = 0. -/
theorem wit_inputs (n : Nat) : ∃ ps : List Inputs, ps.length = n ∧ ∀ p ∈ ps, p.rst = false :=
  ⟨List.replicate n ⟨false, false, 0#32⟩, by simp, fun p hp => by rw [List.eq_of_mem_replicate hp]⟩

/-- IssueIsEnabledOnlyInIdle: a BUSY state, which R121's issue step refuses, and an IDLE one. -/
theorem wit_issue :
    (busyDec 0x7D29FE#24).phase = .busy ∧ State.reset.phase = .idle := ⟨rfl, rfl⟩

theorem test_issue_while_busy : issue 0x40FFFFFF#32 (busyDec 0x7D29FE#24) = .refused .notReady := rfl

/-- ReadIsRefusedWithoutAResponse: RSP_VALID = 0 and RSP_VALID = 1. -/
theorem wit_reads : State.reset.rspValid = false ∧ (complete State.reset 0#32).rspValid = true := ⟨rfl, rfl⟩

end Sys2Proof.Tests
end

section
/-! The scope of the block: the response is a function of the command word (00_scope.md). -/

namespace Sys2Proof.Machine

/-- The visible state after a command issued in IDLE does not mention the state it was issued in (00_scope.md R17). -/
theorem settle_issue_visible {s : State} (w : Word) (h : s.phase = .idle) :
    ((settle s (issue w s)).phase, (settle s (issue w s)).rspValid, (settle s (issue w s)).rspWord) =
      (.idle, true, respond w) := by
  obtain ⟨hphase, hvalid, hword, -⟩ := settle_issue s w h
  rw [hphase, hvalid, hword]

/-- Settles O51: from either idle state the visible state is the same function of the command word. -/
theorem responseDependsOnlyOnTheCommandWord : Obligations.ResponseDependsOnlyOnTheCommandWord := by
  intro w s s' hs hs'
  have ht := settle_issue_visible w hs
  have ht' := settle_issue_visible w hs'
  exact ⟨ht, ht'.trans ht.symm⟩

end Sys2Proof.Machine
end

section
/-! Probes: their numbers, their order, and the search as the first probe that accepts (43_decoder.md R80, R84). -/

namespace Sys2Proof.Machine

theorem Probe.number_none (i : Fin 23) : Probe.number ⟨i, none⟩ = 24 * i.val + 1 := rfl

theorem Probe.number_some (i t : Fin 23) : Probe.number ⟨i, some t⟩ = 24 * i.val + t.val + 2 := rfl

theorem Probe.number_le (p : Probe) : p.number ≤ 552 := by
  rcases p with ⟨i, _ | t⟩
  · rw [Probe.number_none]; omega
  · rw [Probe.number_some]; omega

theorem Probe.number_injective : Function.Injective Probe.number := by
  rintro ⟨i, _ | t⟩ ⟨j, _ | u⟩ h <;> simp only [Probe.number_none, Probe.number_some] at h
  · obtain rfl : i = j := by omega
    rfl
  · omega
  · omega
  · obtain ⟨rfl, rfl⟩ : i = j ∧ t = u := by omega
    rfl

theorem mem_probeOrder (p : Probe) : p ∈ probeOrder := by
  rcases p with ⟨i, _ | t⟩ <;> simp [probeOrder, trialOrder]

/-- Within one rotation the probes come in the order of their numbers. -/
theorem trialOrder_pairwise_number (i : Fin 23) :
    trialOrder.Pairwise fun t u => Probe.number ⟨i, t⟩ < Probe.number ⟨i, u⟩ := by
  refine List.pairwise_cons.2 ⟨fun t ht => ?_, List.pairwise_map.2 ?_⟩
  · obtain ⟨u, -, rfl⟩ := List.mem_map.1 ht
    rw [Probe.number_none, Probe.number_some]
    omega
  · refine (List.pairwise_lt_finRange 23).imp fun {t u} htu => ?_
    rw [Probe.number_some, Probe.number_some]
    omega

/-- The probes come in the order of their numbers (43_decoder.md R80). -/
theorem probeOrder_pairwise_number : probeOrder.Pairwise fun p q => p.number < q.number := by
  refine List.pairwise_flatMap.2 ⟨fun i _ => List.pairwise_map.2 (trialOrder_pairwise_number i), ?_⟩
  refine (List.pairwise_lt_finRange 23).imp fun {i j} hij p hp q hq => ?_
  obtain ⟨t, -, rfl⟩ := List.mem_map.1 hp
  obtain ⟨u, -, rfl⟩ := List.mem_map.1 hq
  rcases t with _ | t <;> rcases u with _ | u <;> simp only [Probe.number_none, Probe.number_some] <;> omega

/-- In the probe order `find?` stops at the probe of the least number at which the predicate holds. -/
theorem find?_probeOrder_of_first {f : Probe → Bool} {p : Probe} (hp : f p = true)
    (hfirst : ∀ q : Probe, q.number < p.number → f q = false) : probeOrder.find? f = some p := by
  obtain ⟨b, hb⟩ := Option.isSome_iff_exists.1 (List.find?_isSome.2 ⟨p, mem_probeOrder p, hp⟩)
  obtain ⟨hfb, as, bs, hsplit, has⟩ := List.find?_eq_some_iff_append.1 hb
  have hsorted := probeOrder_pairwise_number
  have hmem := mem_probeOrder p
  rw [hsplit] at hsorted hmem
  obtain ⟨-, htail, -⟩ := List.pairwise_append.1 hsorted
  rcases List.mem_append.1 hmem with h | h
  · exact absurd (has p h) (by simp [hp])
  rcases List.mem_cons.1 h with rfl | h
  · exact hb
  · have hlt := (List.pairwise_cons.1 htail).1 p h
    exact absurd (hfirst b hlt) (by simp [hfb])

/-- The search stops at the probe that accepts when every probe with a smaller number rejects. -/
theorem search_of_first {r : Word23} {p : Probe} (hp : accepts r p = true)
    (hfirst : ∀ q : Probe, q.number < p.number → accepts r q = false) :
    search r = ⟨reconstruct (probedWord r p) (probeSyndrome r p) p.rot.val, some p⟩ := by
  simp [search, find?_probeOrder_of_first hp hfirst]

/-- The search fails when every probe rejects (43_decoder.md R83). -/
theorem search_of_all_reject {r : Word23} (h : ∀ q : Probe, accepts r q = false) : search r = ⟨r, none⟩ := by
  have hnone : probeOrder.find? (accepts r) = none := List.find?_eq_none.2 fun q _ => by simp [h q]
  simp [search, hnone]

end Sys2Proof.Machine
end

section
/-! The search registers at a probe (10_state.md R30), and the steps of a search in progress. -/

namespace Sys2Proof.Machine

theorem trialOf_ofNat_succ : ∀ t : Fin 23, trialOf (BitVec.ofNat 5 (t.val + 1)) = some t := by decide

@[simp] theorem trialOf_atProbe (x : Operand) (p : Probe) (f : Bool) :
    trialOf (SearchRegs.atProbe x p f).t = p.trial := by
  rcases p with ⟨i, _ | t⟩
  · rfl
  · exact trialOf_ofNat_succ t

@[simp] theorem toNat_i_atProbe (x : Operand) (p : Probe) (f : Bool) :
    (SearchRegs.atProbe x p f).i.toNat = p.rot.val :=
  Nat.mod_eq_of_lt (by omega)

@[simp] theorem accepting_atProbe (x : Operand) (p : Probe) (f : Bool) :
    (SearchRegs.atProbe x p f).accepting = accepts (word23Of x) p := by
  simp only [SearchRegs.accepting, trialOf_atProbe]
  rfl

@[simp] theorem codeword_atProbe (x : Operand) (p : Probe) (f : Bool) :
    (SearchRegs.atProbe x p f).codeword =
      reconstruct (probedWord (word23Of x) p) (probeSyndrome (word23Of x) p) p.rot.val := by
  simp only [SearchRegs.codeword, toNat_i_atProbe]
  rfl

/-- The registers count to the number of their probe: I is the rotation, and T the trial index plus 1. -/
theorem number_atProbe (x : Operand) (p : Probe) (f : Bool) :
    p.number = 24 * p.rot.val + (SearchRegs.atProbe x p f).t.toNat + 1 ∧ (SearchRegs.atProbe x p f).t.toNat ≤ 23 := by
  rcases p with ⟨i, _ | t⟩
  · exact ⟨rfl, Nat.zero_le 23⟩
  · have ht : (SearchRegs.atProbe x ⟨i, some t⟩ f).t.toNat = t.val + 1 := Nat.mod_eq_of_lt (by omega)
    rw [ht, Probe.number_some]
    exact ⟨rfl, t.isLt⟩

/-- The last probe is the one with number 552. -/
theorem lastProbe_atProbe (x : Operand) (p : Probe) (f : Bool) :
    (SearchRegs.atProbe x p f).lastProbe = true ↔ p.number = 552 := by
  obtain ⟨hnumber, hle⟩ := number_atProbe x p f
  simp only [SearchRegs.lastProbe, Bool.and_eq_true, decide_eq_true_eq, ← BitVec.toNat_inj, BitVec.toNat_ofNat,
    toNat_i_atProbe]
  omega

/-- From a trial bit below 23 in T, `advance` goes on to the next trial bit. -/
theorem advance_of_t_ne {h : SearchRegs} (ht : h.t ≠ 23#5) :
    h.advance = { h with
      t := h.t + 1#5, wp := flipTrial h.w (trialOf (h.t + 1#5)), s := syndrome (flipTrial h.w (trialOf (h.t + 1#5))) } := by
  simp [SearchRegs.advance, ht]

/-- From trial bit 23 in T, `advance` goes on to the next rotation, with no flip. -/
theorem advance_of_t_eq {h : SearchRegs} (ht : h.t = 23#5) :
    h.advance = { h with
      i := h.i + 1#5, t := 0#5, w := rotl23 (word23Of h.rcv) (h.i + 1#5).toNat
      wp := rotl23 (word23Of h.rcv) (h.i + 1#5).toNat, s := syndrome (rotl23 (word23Of h.rcv) (h.i + 1#5).toNat) } := by
  simp [SearchRegs.advance, ht]

theorem advance_atProbe_none (x : Operand) (i : Fin 23) (f : Bool) :
    (SearchRegs.atProbe x ⟨i, none⟩ f).advance = SearchRegs.atProbe x ⟨i, some 0⟩ f :=
  advance_of_t_ne (by decide : (0#5 : BitVec 5) ≠ 23#5)

theorem advance_atProbe_some (x : Operand) (i t : Fin 23) (f : Bool) (ht : t.val + 1 < 23) :
    (SearchRegs.atProbe x ⟨i, some t⟩ f).advance = SearchRegs.atProbe x ⟨i, some ⟨t.val + 1, ht⟩⟩ f := by
  have hne : BitVec.ofNat 5 (t.val + 1) ≠ 23#5 := by
    rw [ne_eq, ← BitVec.toNat_inj, BitVec.toNat_ofNat, BitVec.toNat_ofNat]
    omega
  have hsucc : BitVec.ofNat 5 (t.val + 1) + 1#5 = BitVec.ofNat 5 (t.val + 1 + 1) := (BitVec.ofNat_add _ _).symm
  refine (advance_of_t_ne hne).trans ?_
  simp only [SearchRegs.atProbe, hsucc, trialOf_ofNat_succ ⟨t.val + 1, ht⟩]
  rfl

theorem advance_atProbe_lastTrial (x : Operand) (i : Fin 23) (f : Bool) (hi : i.val + 1 < 23) :
    (SearchRegs.atProbe x ⟨i, some 22⟩ f).advance = SearchRegs.atProbe x ⟨⟨i.val + 1, hi⟩, none⟩ f := by
  have hsucc : BitVec.ofNat 5 i.val + 1#5 = BitVec.ofNat 5 (i.val + 1) := (BitVec.ofNat_add _ _).symm
  have htoNat : (BitVec.ofNat 5 (i.val + 1)).toNat = i.val + 1 := Nat.mod_eq_of_lt (by omega)
  refine (advance_of_t_eq rfl).trans ?_
  simp only [SearchRegs.atProbe, hsucc, htoNat]
  rfl

/-- From any probe but the last, `advance` goes on to the probe with the next number (43_decoder.md R80). -/
theorem exists_advance_atProbe (x : Operand) {p : Probe} (f : Bool) (h : p.number ≠ 552) :
    ∃ q : Probe, q.number = p.number + 1 ∧ (SearchRegs.atProbe x p f).advance = SearchRegs.atProbe x q f := by
  rcases p with ⟨i, _ | t⟩
  · exact ⟨_, rfl, advance_atProbe_none x i f⟩
  by_cases ht : t.val + 1 < 23
  · refine ⟨_, ?_, advance_atProbe_some x i t f ht⟩
    simp only [Probe.number_some]
    omega
  · obtain rfl : t = 22 := by omega
    have hi : i.val + 1 < 23 := by
      rw [Probe.number_some] at h
      omega
    exact ⟨_, rfl, advance_atProbe_lastTrial x i f hi⟩

end Sys2Proof.Machine
end

section
/-! A search in progress: what its registers say of the search, and the bound on its internal steps. -/

namespace Sys2Proof.Machine

/-- A bound on the internal steps that a search has still to make: one for each probe from the one in the registers on,
and one to complete once a probe has accepted (43_decoder.md R80, R85). -/
def SearchRegs.stepsLeft (h : SearchRegs) : Nat :=
  if h.found then 1 else 552 - (24 * h.i.toNat + h.t.toNat) + 1

theorem stepsLeft_of_found {h : SearchRegs} (hf : h.found = true) : h.stepsLeft = 1 := by
  simp [SearchRegs.stepsLeft, hf]

theorem stepsLeft_atProbe_false (x : Operand) (p : Probe) :
    (SearchRegs.atProbe x p false).stepsLeft = 554 - p.number := by
  have hfound : (SearchRegs.atProbe x p false).found = false := rfl
  obtain ⟨hnumber, -⟩ := number_atProbe x p false
  have hle := p.number_le
  simp only [SearchRegs.stepsLeft, hfound, toNat_i_atProbe, Bool.false_eq_true, if_false]
  omega

theorem stepsLeft_le (h : SearchRegs) : h.stepsLeft ≤ 553 := by
  unfold SearchRegs.stepsLeft
  split <;> omega

theorem stepsLeft_pos (h : SearchRegs) : 1 ≤ h.stepsLeft := by
  unfold SearchRegs.stepsLeft
  split <;> omega

/-- The registers of a search in progress hold its received word (10_state.md R30). -/
theorem SearchInv.rcv_eq {x : Operand} {h : SearchRegs} (hI : SearchInv x h) : h.rcv = x := by
  obtain ⟨p, hp, -⟩ := hI
  rw [hp]
  rfl

/-- Once FOUND is set, the registers hold the codeword of the search. -/
theorem SearchInv.search_of_found {x : Operand} {h : SearchRegs} (hI : SearchInv x h) (hf : h.found = true) :
    (search (word23Of x)).found = true ∧ (search (word23Of x)).codeword = h.codeword := by
  obtain ⟨p, hp, hfirst, haccept⟩ := hI
  rw [search_of_first (haccept hf) hfirst, hp, codeword_atProbe]
  exact ⟨rfl, rfl⟩

/-- When the probe in the registers accepts, the search notes it and has one step left. -/
theorem SearchInv.set_found {x : Operand} {h : SearchRegs} (hI : SearchInv x h) (hf : h.found = false)
    (ha : h.accepting = true) :
    SearchInv x { h with found := true } ∧ ({ h with found := true } : SearchRegs).stepsLeft < h.stepsLeft := by
  obtain ⟨p, hp, hfirst, -⟩ := hI
  rw [hf] at hp
  subst hp
  refine ⟨⟨p, rfl, hfirst, fun _ => by rwa [accepting_atProbe] at ha⟩, ?_⟩
  have hle := p.number_le
  rw [stepsLeft_of_found rfl, stepsLeft_atProbe_false]
  omega

/-- When the probe in the registers rejects, every probe up to it does. -/
theorem rejects_upTo {x : Operand} {p : Probe} (hfirst : ∀ q : Probe, q.number < p.number →
    accepts (word23Of x) q = false) (hp : accepts (word23Of x) p = false) {q : Probe} (hq : q.number ≤ p.number) :
    accepts (word23Of x) q = false := by
  rcases Nat.lt_or_eq_of_le hq with h | h
  · exact hfirst q h
  · rwa [Probe.number_injective h]

/-- When the last probe rejects, the search has failed (43_decoder.md R83). -/
theorem SearchInv.search_of_lastProbe {x : Operand} {h : SearchRegs} (hI : SearchInv x h)
    (ha : h.accepting = false) (hl : h.lastProbe = true) : search (word23Of x) = ⟨word23Of x, none⟩ := by
  obtain ⟨p, hp, hfirst, -⟩ := hI
  rw [hp, accepting_atProbe] at ha
  rw [hp, lastProbe_atProbe] at hl
  exact search_of_all_reject fun q => rejects_upTo hfirst ha (hl ▸ q.number_le)

/-- When any other probe rejects, the search goes on to the next one, with fewer steps left. -/
theorem SearchInv.advance {x : Operand} {h : SearchRegs} (hI : SearchInv x h) (hf : h.found = false)
    (ha : h.accepting = false) (hl : h.lastProbe = false) :
    SearchInv x h.advance ∧ h.advance.stepsLeft < h.stepsLeft := by
  obtain ⟨p, hp, hfirst, -⟩ := hI
  rw [hf] at hp
  subst hp
  rw [accepting_atProbe] at ha
  have hlast : p.number ≠ 552 := fun h => by simp [(lastProbe_atProbe x p false).2 h] at hl
  obtain ⟨q, hq, hadvance⟩ := exists_advance_atProbe x false hlast
  have hle := p.number_le
  rw [hadvance, stepsLeft_atProbe_false, stepsLeft_atProbe_false]
  refine ⟨⟨q, rfl, fun u hu => rejects_upTo hfirst ha (by omega), fun h => ?_⟩, by omega⟩
  exact absurd h Bool.false_ne_true

/-- One internal step of a search in progress: the search goes on, with fewer steps left, or the command completes with
the result of `search` (43_decoder.md R84, R85). -/
theorem SearchInv.searchStep_cases {x : Operand} {s : State} (hI : SearchInv x s.hid) (finish : Bool → Word23 → Word) :
    (∃ h, searchStep s finish = busyTick s h ∧ SearchInv x h ∧ h.stepsLeft < s.hid.stepsLeft) ∨
    searchStep s finish = complete s (finish (search (word23Of x)).found (search (word23Of x)).codeword) := by
  rcases Machine.searchStep_cases s finish with ⟨hf, h⟩ | ⟨hf, ha, h⟩ | ⟨hf, ha, hl, h⟩ | ⟨hf, ha, hl, h⟩
  · obtain ⟨hfound, hcodeword⟩ := hI.search_of_found hf
    exact .inr (by rw [h, hfound, hcodeword])
  · exact .inl ⟨_, h, hI.set_found hf ha⟩
  · exact .inr (by rw [h, hI.search_of_lastProbe ha hl, hI.rcv_eq]; rfl)
  · exact .inl ⟨_, h, hI.advance hf ha hl⟩

end Sys2Proof.Machine
end

section
/-! The invariant of the machine (10_state.md R18, R30, R31; 43_decoder.md R84). -/

namespace Sys2Proof.Machine

/-- In IDLE the invariant speaks of the response only. -/
theorem inv_of_idle {s : State} (hp : s.phase = .idle) (hr : s.rspValid = true → s.rspWord = respond s.cmd) :
    s.Inv where
  busy_no_response := fun h => by simp [hp] at h
  response := hr
  search := fun h => by simp [hp] at h

theorem resetEdge_inv (s : State) : (resetEdge s).Inv :=
  inv_of_idle rfl fun h => absurd h Bool.false_ne_true

/-- A completion with the response to the latched command leaves the invariant. -/
theorem Completed.inv {s t : State} (h : Completed s t (respond s.cmd)) : t.Inv :=
  inv_of_idle h.phase fun _ => by rw [h.rspWord, h.cmd]

theorem completed_respondIllegal (s : State) : Completed s (respondIllegal s) illegalResponse :=
  ⟨rfl, rfl, rfl, rfl, rfl, rfl, rfl⟩

/-- Acceptance leaves the invariant, whatever the block held. -/
theorem accept_inv (s : State) : (accept s).Inv where
  busy_no_response := fun _ => rfl
  response := fun h => absurd h Bool.false_ne_true
  search := fun _ x hx => by
    rw [accept_hid, loadSearch_of_decode (w := s.cmdWord) _ hx]
    exact startSearch_inv x

/-- An internal step that goes on with a search in progress keeps the invariant. -/
theorem busyTick_inv {s : State} {x : Operand} {h : SearchRegs} (hI : s.Inv) (hp : s.phase = .busy)
    (hd : decode s.cmd = .ok (.dec x) ∨ decode s.cmd = .ok (.decx x)) (hh : SearchInv x h) : (busyTick s h).Inv where
  busy_no_response := hI.busy_no_response
  response := fun hv => absurd ((hI.busy_no_response hp).symm.trans hv) Bool.false_ne_true
  search := fun _ y hy => by
    have hxy : x = y := by
      rcases hd with hd | hd <;> rw [busyTick_cmd, hd] at hy <;> simpa using hy
    rwa [← hxy]

/-- An internal step brings the command in flight forward: its search goes on, with fewer steps left, or it completes
with its response (10_state.md R31). -/
def State.Progresses (s : State) : Prop :=
  (∃ h, internalStep s = .next (busyTick s h) ∧ (busyTick s h).Inv ∧ h.stepsLeft < s.hid.stepsLeft) ∨
  Completed s (settle s (internalStep s)) (respond s.cmd)

theorem progresses_of_search {s : State} {x : Operand} {finish : Bool → Word23 → Word} (hI : s.Inv)
    (hp : s.phase = .busy) (hd : decode s.cmd = .ok (.dec x) ∨ decode s.cmd = .ok (.decx x))
    (hstep : internalStep s = .next (searchStep s finish))
    (hrespond : respond s.cmd = finish (search (word23Of x)).found (search (word23Of x)).codeword) : s.Progresses := by
  rcases (hI.search hp x hd).searchStep_cases finish with ⟨h, hs, hh, hlt⟩ | hs
  · exact .inl ⟨h, by rw [hstep, hs], busyTick_inv hI hp hd hh, hlt⟩
  · refine .inr ?_
    rw [hstep, hs, hrespond]
    exact completed_complete s _

/-- Every internal step of the BUSY phase brings the command forward. -/
theorem State.Inv.progresses {s : State} (hI : s.Inv) (hp : s.phase = .busy) : s.Progresses := by
  cases hd : decode s.cmd with
  | error e =>
    refine .inr ?_
    rw [internalStep_error hd, respond_of_error hd]
    exact completed_respondIllegal s
  | ok i =>
    have hrespond := respond_of_decode hd
    rcases internalStep_ok hd with ⟨x, rfl, h⟩ | ⟨x, rfl, h⟩ | ⟨-, h⟩
    · rw [(hI.search hp x (.inl hd)).rcv_eq] at h
      exact progresses_of_search hI hp (.inl hd) h hrespond
    · rw [(hI.search hp x (.inr hd)).rcv_eq] at h
      exact progresses_of_search hI hp (.inr hd) h hrespond
    · refine .inr ?_
      rw [h, hrespond]
      exact completed_complete s _

theorem settle_internalStep_inv {s : State} (hI : s.Inv) (hp : s.phase = .busy) :
    (settle s (internalStep s)).Inv := by
  rcases hI.progresses hp with ⟨h, hstep, hinv, -⟩ | hdone
  · rwa [hstep, settle_next]
  · exact hdone.inv

/-- One transition keeps the invariant (10_state.md R31). -/
theorem settle_edge_inv {s : State} (hI : s.Inv) : (settle s (edge s)).Inv := by
  rcases edge_cases s with ⟨-, h⟩ | ⟨-, -, -, h⟩ | ⟨-, -, -, h⟩ | ⟨-, hp, h⟩ <;> rw [h]
  · exact resetEdge_inv s
  · exact accept_inv s
  · exact hI
  · exact settle_internalStep_inv hI hp

/-- One step keeps the invariant, whether it goes on or faults. -/
theorem settle_step_inv {s : State} (hI : s.Inv) : (settle s (step s)).Inv := by
  cases ha : acceptsCommand s with
  | false => rw [step_of_not_accepts ha]; exact settle_edge_inv hI
  | true =>
    rw [step_of_accepts ha]
    obtain ⟨hphase, -, hword, hcmd⟩ := settle_transact s s
    exact inv_of_idle hphase fun _ => by rw [hword, hcmd]

/-- Settles O53: each case of a step leaves a state that meets the invariant; a fault leaves a completed one. -/
theorem everyStepKeepsTheInvariant : Obligations.EveryStepKeepsTheInvariant := by
  intro s hI
  have hstep := settle_step_inv hI
  exact ⟨fun t ht => by rwa [ht] at hstep, fun f hf => by rwa [hf] at hstep⟩

/-- Settles O54, by induction on the inputs: driving the ports and one transition each keep the invariant. -/
theorem everyRunOfEdgesKeepsTheInvariant : Obligations.EveryRunOfEdgesKeepsTheInvariant := by
  intro ps
  induction ps with
  | nil => exact fun s hI => hI
  | cons p ps ih => exact fun s hI => ih _ (settle_edge_inv (drive_inv hI p))

/-- Settles O49, clause by clause from the equations of one transition; while BUSY, by the progress of the command. -/
theorem visibleStateTransitions : Obligations.VisibleStateTransitions := by
  intro s hI t
  refine ⟨fun hr => ?_, fun hr hp hv => ?_, fun hr hp hv => ?_, fun hr hp => ?_⟩
  · have ht : t = resetEdge s := by simp [t, edge_of_rst hr]
    rw [ht]
    exact ⟨rfl, rfl, rfl⟩
  · have ht : t = accept s := by simp [t, edge_of_accept hr hp hv]
    rw [ht]
    exact ⟨rfl, rfl, rfl⟩
  · have ht : t = s := by simp [t, edge_of_idle hr hp hv]
    rw [ht]
    exact ⟨hp, rfl, rfl⟩
  · have ht : t = settle s (internalStep s) := by simp [t, edge_of_busy hr hp]
    rw [ht]
    rcases hI.progresses hp with ⟨h, hstep, -, -⟩ | hdone
    · rw [hstep]
      exact .inl ⟨hp, hI.busy_no_response hp, rfl⟩
    · exact .inr ⟨hdone.phase, hdone.rspValid, hdone.rspWord, hdone.cmd⟩

/-- Settles O42: the state that runs the command is the one that acceptance leaves. -/
theorem stepRunsTheDecodedCommand : Obligations.StepRunsTheDecodedCommand := by
  intro s i hr hp hv hd
  have hstep : step s = exec i (accept s) := by
    rw [step_of_accepts ((acceptsCommand_iff s).2 ⟨hv, hp, hr⟩), transact_ok hd, exec_eq]
  exact ⟨accept s, hstep, rfl, rfl, rfl, rfl, rfl, rfl⟩

end Sys2Proof.Machine
end

section
/-! The BUSY phase as a whole: how many internal steps a command takes, and what the ports show meanwhile and at the end
(10_state.md R31, R32, R33). -/

namespace Sys2Proof.Machine

theorem searchStep_drive (s : State) (p : Inputs) (finish : Bool → Word23 → Word) :
    searchStep (s.drive p) finish = (searchStep s finish).drive p := by
  simp only [searchStep, drive_hid, apply_ite (fun t : State => t.drive p)]
  rfl

/-- An internal step does not look at the input ports, and leaves them as they are (20_memory.md R37). -/
theorem settle_internalStep_drive (s : State) (p : Inputs) :
    settle (s.drive p) (internalStep (s.drive p)) = (settle s (internalStep s)).drive p := by
  cases hd : decode s.cmd with
  | error e =>
    rw [internalStep_error hd, internalStep_error (s := s.drive p) hd]
    rfl
  | ok i => cases i <;> simp only [internalStep, drive_cmd, hd, settle_next, drive_hid, searchStep_drive] <;> rfl

/-- The command in flight in s completes after n internal steps: s is BUSY with RSP_VALID = 0 until then, CMD is kept,
and at the end the visible state is (IDLE, 1, response to CMD). -/
def CompletesIn : Nat → State → Prop
  | 0, s => s.phase = .idle ∧ s.rspValid = true ∧ s.rspWord = respond s.cmd
  | n + 1, s => s.phase = .busy ∧ s.rspValid = false ∧ (settle s (internalStep s)).cmd = s.cmd ∧
      CompletesIn n (settle s (internalStep s))

/-- When a command completes does not depend on the input ports. -/
theorem CompletesIn.drive {n : Nat} {s : State} (h : CompletesIn n s) (p : Inputs) : CompletesIn n (s.drive p) := by
  induction n generalizing s with
  | zero => exact h
  | succ n ih =>
    obtain ⟨hphase, hvalid, hcmd, hnext⟩ := h
    refine ⟨hphase, hvalid, ?_, ?_⟩ <;> rw [settle_internalStep_drive]
    · exact hcmd
    · exact ih hnext

/-- From a BUSY state that meets the invariant, the command completes within the steps its search has left. -/
theorem exists_completesIn {s : State} (hI : s.Inv) (hp : s.phase = .busy) :
    ∃ n, 1 ≤ n ∧ n ≤ s.hid.stepsLeft ∧ CompletesIn n s := by
  induction hk : s.hid.stepsLeft using Nat.strong_induction_on generalizing s with
  | _ k ih =>
    have hvalid := hI.busy_no_response hp
    rcases hI.progresses hp with ⟨h, hstep, hinv, hlt⟩ | hdone
    · obtain ⟨n, hn, hle, hcompletes⟩ := ih h.stepsLeft (hk ▸ hlt) hinv hp rfl
      refine ⟨n + 1, by omega, by omega, hp, hvalid, ?_, ?_⟩ <;> rw [hstep]
      · rfl
      · exact hcompletes
    · refine ⟨1, le_rfl, hk ▸ stepsLeft_pos s.hid, hp, hvalid, hdone.cmd, hdone.phase, hdone.rspValid, ?_⟩
      rw [hdone.rspWord, hdone.cmd]

/-- Transitions with RST = 0, under any other inputs, are internal steps until the command has completed. -/
theorem CompletesIn.after_runEdges {n : Nat} {s : State} (h : CompletesIn n s) {ps : List Inputs} (hlen : ps.length ≤ n)
    (hrst : ∀ p ∈ ps, p.rst = false) :
    CompletesIn (n - ps.length) (runEdges ps s) ∧ (runEdges ps s).cmd = s.cmd := by
  induction ps generalizing n s with
  | nil => exact ⟨h, rfl⟩
  | cons p ps ih =>
    obtain ⟨hp, hps⟩ := List.forall_mem_cons.1 hrst
    obtain ⟨m, rfl⟩ : ∃ m, n = m + 1 := Nat.exists_eq_add_one.2 (Nat.lt_of_lt_of_le (Nat.succ_pos _) hlen)
    obtain ⟨hphase, -, hcmd, hnext⟩ := h
    have hedge : settle (s.drive p) (edge (s.drive p)) = (settle s (internalStep s)).drive p := by
      rw [edge_of_busy (s := s.drive p) hp hphase, settle_internalStep_drive]
    obtain ⟨hrest, hkept⟩ := ih (hnext.drive p) (Nat.le_of_succ_le_succ hlen) hps
    rw [runEdges, hedge, List.length_cons, Nat.add_sub_add_right]
    exact ⟨hrest, hkept.trans hcmd⟩

/-- The transition that presents a command to an idle block accepts it. -/
theorem runEdges_cons_of_idle {s : State} (w : Word) (ps : List Inputs) (h : s.phase = .idle) :
    runEdges (⟨false, true, w⟩ :: ps) s = runEdges ps (accept (s.drive ⟨false, true, w⟩)) := by
  rw [runEdges, edge_of_accept (s := s.drive ⟨false, true, w⟩) rfl h rfl, settle_next]

/-- Settles O56: the accepted state meets the invariant, so its command completes after some number of internal steps,
with the visible state of the atomic step. -/
theorem busyPhaseRefinesTheAtomicTransaction : Obligations.BusyPhaseRefinesTheAtomicTransaction := by
  intro s w hidle
  obtain ⟨n, hn, hle, hcompletes⟩ := exists_completesIn (accept_inv (s.drive ⟨false, true, w⟩)) rfl
  refine ⟨n, hn, hle.trans (stepsLeft_le _), fun ps hlen hrst => ?_, fun ps hlen hrst => ?_⟩
  · obtain ⟨hrun, hcmd⟩ := hcompletes.after_runEdges hlen.le hrst
    obtain ⟨m, hm⟩ : ∃ m, n - ps.length = m + 1 := Nat.exists_eq_add_one.2 (Nat.sub_pos_of_lt hlen)
    rw [hm] at hrun
    obtain ⟨hphase, hvalid, -⟩ := hrun
    rw [runEdges_cons_of_idle w ps hidle]
    exact ⟨hphase, hvalid, hcmd⟩
  · obtain ⟨hrun, hcmd⟩ := hcompletes.after_runEdges hlen.le hrst
    rw [hlen, Nat.sub_self] at hrun
    obtain ⟨hphase, hvalid, hword⟩ := hrun
    obtain ⟨uphase, uvalid, uword, ucmd⟩ := settle_issue s w hidle
    rw [hcmd] at hword
    rw [runEdges_cons_of_idle w ps hidle]
    refine ⟨hphase, hvalid, hword, hcmd, ?_⟩
    rw [uphase, uvalid, uword, ucmd, hphase, hvalid, hword, hcmd]
    rfl

end Sys2Proof.Machine
end

section
/-! The weight counter counts the 1 bits (42_weight.md R74), and the fields of every response (10_state.md R21 to R24). -/

namespace Sys2Proof.Machine

theorem nibbleWeight_eq_popcount : ∀ n : BitVec 4, nibbleWeight n = popcount n := by decide

theorem nibble_getLsbD (x : Word24) (n : Nat) {j : Nat} (hj : j < 4) :
    (nibble x n).getLsbD j = x.getLsbD (4 * n + j) := by
  simp [nibble, hj]

/-- The sum over the low nibbles is the number of 1 bits in them. -/
theorem nibbleSum_eq_countP (x : Word24) (n : Nat) :
    nibbleSum x n = (List.range (4 * n)).countP fun j => x.getLsbD j := by
  induction n with
  | zero => rfl
  | succ n ih =>
    have hnibble : nibbleWeight (nibble x n) = (List.range 4).countP fun j => x.getLsbD (4 * n + j) := by
      rw [nibbleWeight_eq_popcount, popcount]
      refine List.countP_congr fun j hj => ?_
      rw [nibble_getLsbD x n (List.mem_range.1 hj)]
    rw [nibbleSum, ih, hnibble, Nat.mul_succ, List.range_add, List.countP_append, List.countP_map]
    rfl

theorem weight_eq_popcount (x : Word24) : weight x = popcount x := nibbleSum_eq_countP x 6

/-- Bit 23 = 0 adds nothing to the weight of a 23-bit word. -/
theorem popcount_zext24 (c : Word23) : popcount (zext24 c) = popcount c := by
  have htop : (zext24 c).getLsbD 23 = false := by simp [zext24]
  rw [popcount, List.range_succ, List.countP_append, popcount]
  simp only [List.countP_singleton, htop]
  refine List.countP_congr fun j hj => ?_
  simp [zext24, Nat.lt_succ_of_lt (List.mem_range.1 hj)]

/-- k is the number of bits in which the codeword and the received word differ (43_decoder.md R90). -/
theorem flips_eq_popcount (c r : Word23) : flips c r = popcount (c ^^^ r) := by
  rw [flips, weight_eq_popcount, popcount_zext24]

theorem decxStatus_eq_uncorrectable_iff (dist : Nat) : decxStatus dist = .uncorrectable ↔ 4 ≤ dist := by
  unfold decxStatus
  split_ifs <;> simp <;> omega

/-- The parity re-check of DECX fails: the search found a codeword, at distance 4 or more in the extended code
(43_decoder.md R94). -/
def FailsParityRecheck (x : Operand) : Prop :=
  (search (x.extractLsb' 0 23)).found = true ∧
    4 ≤ popcount ((search (x.extractLsb' 0 23)).codeword ^^^ x.extractLsb' 0 23) +
      (parityMismatch (search (x.extractLsb' 0 23)).codeword x).toNat

/-- DEC never reports PMISM. -/
theorem decResponse_eq_rsp (r : Word23) (found : Bool) (c : Word23) :
    ∃ res st, decResponse r found c = rsp res st false := by
  cases found
  · exact ⟨_, _, rfl⟩
  · exact ⟨_, _, rfl⟩

/-- DECX reports PMISM exactly for a codeword found at distance 4 or more, and then Uncorrectable
(43_decoder.md R94). -/
theorem decxResponse_eq_rsp (r : Word24) (found : Bool) (c : Word23) :
    ∃ res st pm, decxResponse r found c = rsp res st pm ∧ (pm = true → st = .uncorrectable) ∧
      (pm = true ↔ found = true ∧ 4 ≤ popcount (c ^^^ word23Of r) + (parityMismatch c r).toNat) := by
  cases found with
  | false => exact ⟨_, _, _, rfl, by simp, by simp⟩
  | true =>
    rw [← flips_eq_popcount, ← extendedDistance, ← decxStatus_eq_uncorrectable_iff, decxResponse, if_pos rfl]
    split <;> exact ⟨_, _, _, rfl, by simp, by simp [*]⟩

/-- The response to every command is assembled from a result, a STATUS other than 00 only for a decode, and a PMISM that
is set exactly by a DECX whose parity re-check fails (10_state.md R22, R23). -/
theorem respondInstr_eq_rsp (i : Instr) :
    ∃ res st pm, respondInstr i = rsp res st pm ∧
      (st ≠ .clean → ∃ x, i = .dec x ∨ i = .decx x) ∧ (pm = true → st = .uncorrectable) ∧
      (pm = true ↔ ∃ x, i = .decx x ∧ FailsParityRecheck x) := by
  cases i with
  | enc x | encx x | syn x | wgt x => exact ⟨_, _, _, rfl, by simp, by simp, by simp⟩
  | dec x =>
    obtain ⟨res, st, h⟩ := decResponse_eq_rsp (word23Of x) (search (word23Of x)).found (search (word23Of x)).codeword
    exact ⟨res, st, false, h, fun _ => ⟨x, .inl rfl⟩, by simp, by simp⟩
  | decx x =>
    obtain ⟨res, st, pm, h, hst, hpm⟩ :=
      decxResponse_eq_rsp x (search (word23Of x)).found (search (word23Of x)).codeword
    refine ⟨res, st, pm, h, fun _ => ⟨x, .inr rfl⟩, hst, hpm.trans ⟨fun hx => ⟨x, rfl, hx⟩, ?_⟩⟩
    rintro ⟨y, hy, hx⟩
    rwa [← Instr.decx.inj hy] at hx

theorem bits_eq_zero_iff (st : DecodeStatus) : st.bits = 0b00#2 ↔ st = .clean := by
  cases st <;> decide

theorem bits_ne_three (st : DecodeStatus) : st.bits ≠ 0b11#2 := by
  cases st <;> decide

/-- Settles O27: a refused word has the one response 0x08000000; any other response is assembled by `rsp`, whose fields
are known. -/
theorem responseFieldsAreLegal : Obligations.ResponseFieldsAreLegal := by
  intro w
  cases hd : decode w with
  | error e =>
    rw [respond_of_error hd]
    exact ⟨by decide, by decide, ⟨.clean, rfl⟩, fun h => absurd rfl h, by simp [illegalResponse], by decide,
      ⟨fun _ => ⟨e, rfl⟩, fun _ => rfl⟩, fun _ => rfl⟩
  | ok i =>
    obtain ⟨res, st, pm, hrsp, hst, hpmst, hpm⟩ := respondInstr_eq_rsp i
    have htop : (rsp res st pm).extractLsb' 28 4 = 0b0000#4 := topField_rsp res st pm
    have hstatus : (rsp res st pm).extractLsb' 24 2 = st.bits := statusField_rsp res st pm
    have hpmism : (rsp res st pm).getLsbD 26 = pm := pmismField_rsp res st pm
    have hillegal : (rsp res st pm).getLsbD 27 = false := illegalField_rsp res st pm
    rw [respond_of_decode hd, hrsp, htop, hstatus, hpmism, hillegal]
    refine ⟨rfl, bits_ne_three st, ⟨st, readStatus_rsp res st pm⟩, fun h => ?_, hpm.trans ?_, fun h => ?_, by simp,
      fun h => absurd h Bool.false_ne_true⟩
    · obtain ⟨x, hx⟩ := hst fun hc => h ((bits_eq_zero_iff st).2 hc)
      exact ⟨x, by simpa using hx⟩
    · simp [FailsParityRecheck]
    · rw [hpmst h]
      rfl

end Sys2Proof.Machine
end

section
/-! The host's view of memory: the ports while a command is in flight, and sequences of commands (20_memory.md R37,
R39). -/

namespace Sys2Proof.Machine

/-- Settles O50: while BUSY with RST = 0 the transition is an internal step, whatever the other two ports are driven to,
and an internal step keeps the ports and does not look at them. -/
theorem commandInFlightIgnoresThePorts : Obligations.CommandInFlightIgnoresThePorts := by
  intro s v w hp hr
  rw [edge_of_busy (s := s.drive ⟨false, v, w⟩) rfl hp, edge_of_busy hr hp, settle_internalStep_drive]

/-- From an idle state the responses to a sequence of commands do not mention the state (20_memory.md R39). -/
theorem responses_of_idle (ws : List Word) {s : State} (h : s.phase = .idle) :
    responses ws s = ws.map fun w => .ok (respond w) := by
  induction ws generalizing s with
  | nil => rfl
  | cons w ws ih =>
    obtain ⟨hidle, -⟩ := settle_issue s w h
    rw [responses_cons_of_idle w ws h, ih hidle, List.map_cons]

/-- From an idle state each pair of command and response is a function of the command alone. -/
theorem zip_responses_of_idle (ws : List Word) {s : State} (h : s.phase = .idle) :
    ws.zip (responses ws s) = ws.map fun w => (w, .ok (respond w)) := by
  rw [responses_of_idle ws h, List.map_prod_left_eq_zip]

/-- Settles O52: the pairs are the commands mapped by one function, and mapping keeps a permutation. -/
theorem responsesComeInOrder : Obligations.ResponsesComeInOrder := by
  intro ws s hs
  refine ⟨responses_of_idle ws hs, fun vs s' hperm hs' => ?_⟩
  rw [zip_responses_of_idle ws hs, zip_responses_of_idle vs hs']
  exact hperm.map _

end Sys2Proof.Machine
end

section
/-! What the decoder does with each word: the inverse of the encoder, and the words it refuses (30_encoding.md R45, R48,
R53, R54, R55, R57). -/

namespace Sys2Proof

@[simp] theorem Mnemonic.mnemonic_instr (m : Mnemonic) (x : Operand) : (m.instr x).mnemonic = m := by
  cases m <;> rfl

@[simp] theorem Mnemonic.operand_instr (m : Mnemonic) (x : Operand) : (m.instr x).operand = x := by
  cases m <;> rfl

@[simp] theorem Instr.instr_mnemonic_operand (i : Instr) : i.mnemonic.instr i.operand = i := by
  cases i <;> rfl

theorem encode_instr (m : Mnemonic) (x : Operand) : encode (m.instr x) = m.opcode ++ 0b0000#4 ++ x := by
  simp [encode]

/-- OP selects no operation: 0x0, or 0x7 to 0xF (30_encoding.md R54). -/
def ReservedOpcode (op : BitVec 4) : Prop := op = 0x0#4 ∨ 0x7 ≤ op.toNat

/-- Every OP is the opcode of an operation or reserved (30_encoding.md R48, R54). -/
theorem exists_opcode_or_reserved (op : BitVec 4) : (∃ m : Mnemonic, op = m.opcode) ∨ ReservedOpcode op := by
  have hop : op = 0x1#4 ∨ op = 0x2#4 ∨ op = 0x3#4 ∨ op = 0x4#4 ∨ op = 0x5#4 ∨ op = 0x6#4 ∨ op = 0x0#4 ∨
      0x7 ≤ op.toNat := by
    revert op; decide
  rcases hop with h | h | h | h | h | h | h
  · exact .inl ⟨.enc, h⟩
  · exact .inl ⟨.encx, h⟩
  · exact .inl ⟨.syn, h⟩
  · exact .inl ⟨.wgt, h⟩
  · exact .inl ⟨.dec, h⟩
  · exact .inl ⟨.decx, h⟩
  · exact .inr h

theorem Mnemonic.opcode_not_reserved (m : Mnemonic) : ¬ ReservedOpcode m.opcode := by
  cases m <;> simp [ReservedOpcode, Mnemonic.opcode]

theorem decode_of_opcode {w : Word} {m : Mnemonic} (hrsv : rsvField w = 0#4) (hop : opField w = m.opcode) :
    decode w = .ok (m.instr (operandField w)) := by
  cases m <;> simp [decode, hrsv, hop, Mnemonic.opcode, Mnemonic.instr]

theorem decode_of_reservedOpcode {w : Word} (hrsv : rsvField w = 0#4) (hop : ReservedOpcode (opField w)) :
    decode w = .error (.reservedOpcode (opField w)) := by
  have hnot (m : Mnemonic) : opField w ≠ m.opcode := fun h => m.opcode_not_reserved (h ▸ hop)
  simp only [decode, hrsv, if_true]
  split
  · exact absurd (BitVec.eq_of_toNat_eq ‹_›) (hnot .enc)
  · exact absurd (BitVec.eq_of_toNat_eq ‹_›) (hnot .encx)
  · exact absurd (BitVec.eq_of_toNat_eq ‹_›) (hnot .syn)
  · exact absurd (BitVec.eq_of_toNat_eq ‹_›) (hnot .wgt)
  · exact absurd (BitVec.eq_of_toNat_eq ‹_›) (hnot .dec)
  · exact absurd (BitVec.eq_of_toNat_eq ‹_›) (hnot .decx)
  · rfl

theorem decode_of_rsv {w : Word} (hrsv : rsvField w ≠ 0#4) : decode w = .error (.reservedBits (rsvField w)) := by
  simp [decode, hrsv]

/-- What the decoder can do: select the operation of the opcode, or refuse RSV or OP (30_encoding.md R53, R54). -/
theorem decode_cases (w : Word) :
    (∃ m : Mnemonic, rsvField w = 0#4 ∧ opField w = m.opcode ∧ decode w = .ok (m.instr (operandField w))) ∨
    (rsvField w = 0#4 ∧ ReservedOpcode (opField w) ∧ decode w = .error (.reservedOpcode (opField w))) ∨
    (rsvField w ≠ 0#4 ∧ decode w = .error (.reservedBits (rsvField w))) := by
  by_cases hrsv : rsvField w = 0#4
  · rcases exists_opcode_or_reserved (opField w) with ⟨m, hop⟩ | hop
    · exact .inl ⟨m, hrsv, hop, decode_of_opcode hrsv hop⟩
    · exact .inr (.inl ⟨hrsv, hop, decode_of_reservedOpcode hrsv hop⟩)
  · exact .inr (.inr ⟨hrsv, decode_of_rsv hrsv⟩)

/-- A word is its three fields, from bit 31 down (30_encoding.md R45). -/
theorem fields_append (w : Word) : opField w ++ rsvField w ++ operandField w = w := by
  have htop : opField w ++ rsvField w = w.extractLsb' 24 8 := BitVec.extractLsb'_append_extractLsb'_eq_extractLsb' rfl
  rw [htop]
  exact (BitVec.extractLsb'_append_extractLsb'_eq_extractLsb' rfl).trans BitVec.extractLsb'_eq_self

theorem decode_encode (i : Instr) : decode (encode i) = .ok i := by
  have hrsv : rsvField (encode i) = 0#4 := Laws.rsvField_append _ _
  have hop : opField (encode i) = i.mnemonic.opcode := Laws.opField_append _ _
  have hoperand : operandField (encode i) = i.operand := Laws.operandField_append _ _
  rw [decode_of_opcode hrsv hop, hoperand, Instr.instr_mnemonic_operand]

theorem encode_of_decode {w : Word} {i : Instr} (h : decode w = .ok i) : encode i = w := by
  rcases decode_cases w with ⟨m, hrsv, hop, hd⟩ | ⟨-, -, hd⟩ | ⟨-, hd⟩ <;> rw [hd] at h
  · rw [← Except.ok.inj h, encode_instr, ← hop, ← hrsv, fields_append]
  · cases h
  · cases h

/-- The decoder refuses a word exactly when RSV is not 0000 or OP is reserved (30_encoding.md R54). -/
theorem decode_error_iff (w : Word) :
    (∃ e, decode w = .error e) ↔ rsvField w ≠ 0#4 ∨ ReservedOpcode (opField w) := by
  rcases decode_cases w with ⟨m, hrsv, hop, hd⟩ | ⟨-, hop, hd⟩ | ⟨hrsv, hd⟩ <;> rw [hd]
  · simp [hrsv, hop, m.opcode_not_reserved]
  · simp [hop]
  · simp [hrsv]

end Sys2Proof
end

section
/-! Encoding: decode and encode, the reserved words, the refusal of a command and the assembly of its lines (30_encoding.md). -/

namespace Sys2Proof.Machine

/-- Settles O1: the fields of a command's word select the command, and a word is its three fields. -/
theorem decodeAndEncodeAgree : Obligations.DecodeAndEncodeAgree := by
  intro w i
  constructor
  · exact fun h => (encode_of_decode h).symm
  · rintro rfl
    exact decode_encode i

/-- Settles O2: this is the decoder's case analysis, with the fields written out. -/
theorem decoderRefusesExactlyTheReservedWords : Obligations.DecoderRefusesExactlyTheReservedWords :=
  decode_error_iff

/-- Settles O3: the six words are the encodings of their commands; each refused word has a nonzero RSV or a reserved
OP. -/
theorem writtenWordsDecode : Obligations.WrittenWordsDecode :=
  ⟨decode_encode (.enc 0x0001FF#24), decode_encode (.encx 0xABC123#24), decode_encode (.syn 0x3D31B7#24),
    decode_encode (.wgt 0x123456#24), decode_encode (.dec 0x7D29FE#24), decode_encode (.decx 0xBD31B7#24),
    decode_of_reservedOpcode rfl (.inl rfl), decode_of_reservedOpcode rfl (.inr (by decide)),
    decode_of_reservedOpcode rfl (.inr (by decide)), decode_of_rsv (by decide), decode_of_rsv (by decide)⟩

theorem reservedOpcode_iff_mem (op : BitVec 4) :
    ReservedOpcode op ↔ op ∈ [0x0#4, 0x7, 0x8, 0x9, 0xA, 0xB, 0xC, 0xD, 0xE, 0xF] := by
  unfold ReservedOpcode
  revert op
  decide

/-- Settles O43: the refused words are the decoder's, and the fault carries the state that acceptance and the ILLEGAL
response leave; acceptance of a refused word loads no search. -/
theorem refusedCommandRespondsIllegal : Obligations.RefusedCommandRespondsIllegal := by
  refine ⟨fun w => ?_, fun s hr hp hv ⟨e, he⟩ => ?_⟩
  · rw [decode_error_iff, reservedOpcode_iff_mem]
    rfl
  · have hstep : step s = .fault (.illegalCommand s.cmdWord (respondIllegal (accept s))) := by
      rw [step_of_accepts ((acceptsCommand_iff s).2 ⟨hv, hp, hr⟩), transact_error he]
    have hhid : loadSearch s.cmdWord s.hid = s.hid := by simp [loadSearch, he]
    exact ⟨respondIllegal (accept s), hstep, rfl, rfl, rfl, rfl, hhid, rfl, rfl, rfl⟩

theorem assemble_command {m : Mnemonic} {x : Nat} (h : x < 2 ^ 24) :
    (AsmLine.command m x).assemble = some (encode (m.instr (BitVec.ofNat 24 x))) := by
  simp only [AsmLine.assemble, AsmLine.wellFormed, h, decide_true, if_true]

theorem assemble_command_of_wide {m : Mnemonic} {x : Nat} (h : 2 ^ 24 ≤ x) :
    (AsmLine.command m x).assemble = none := by
  simp only [AsmLine.assemble, AsmLine.wellFormed, h.not_gt, decide_false, Bool.false_eq_true, if_false]

theorem assemble_word {w : Nat} (h : w < 2 ^ 32) : (AsmLine.word w).assemble = some (BitVec.ofNat 32 w) := by
  simp only [AsmLine.assemble, AsmLine.wellFormed, h, decide_true, if_true]

/-- An operand that fits in its field assembles to itself. -/
theorem assemble_command_toNat (m : Mnemonic) (x : Operand) :
    (AsmLine.command m x.toNat).assemble = some (encode (m.instr x)) := by
  rw [assemble_command x.isLt, BitVec.ofNat_toNat, BitVec.setWidth_eq]

/-- Settles O4: the bounds are those of a well-formed line; the two texts are parsed and assembled by evaluation. -/
theorem assemblyNotation : Obligations.AssemblyNotation := by
  refine ⟨fun m x h => ?_, fun m x h => assemble_command_of_wide h, fun w h => assemble_word h,
    Tests.test_assemble_example, by decide +kernel⟩
  rw [assemble_command h, encode_instr]

end Sys2Proof.Machine
end

section
/-! The widths of operands and results: the OPERAND bits an operation ignores, and the RESULT bits that are 0
(30_encoding.md R46, R49, R50). -/

namespace Sys2Proof.Machine

@[simp] theorem respond_encode (i : Instr) : respond (encode i) = respondInstr i :=
  respond_of_decode (decode_encode i)

/-- Words that agree below bit n have the same low n bits. -/
theorem extractLsb'_zero_eq_of_mod {k n : Nat} {x y : BitVec k} (h : x.toNat % 2 ^ n = y.toNat % 2 ^ n) :
    x.extractLsb' 0 n = y.extractLsb' 0 n := by
  apply BitVec.eq_of_toNat_eq
  simpa only [BitVec.extractLsb'_toNat, Nat.shiftRight_zero] using h

theorem dataOf_eq_of_mod {x y : Operand} (h : x.toNat % 2 ^ 12 = y.toNat % 2 ^ 12) : dataOf x = dataOf y :=
  extractLsb'_zero_eq_of_mod h

theorem word23Of_eq_of_mod {x y : Operand} (h : x.toNat % 2 ^ 23 = y.toNat % 2 ^ 23) : word23Of x = word23Of y :=
  extractLsb'_zero_eq_of_mod h

theorem eq_of_mod_24 {x y : Operand} (h : x.toNat % 2 ^ 24 = y.toNat % 2 ^ 24) : x = y := by
  rwa [Nat.mod_eq_of_lt x.isLt, Nat.mod_eq_of_lt y.isLt, BitVec.toNat_inj] at h

/-- The response depends only on the OPERAND bits that the operation reads (30_encoding.md R49). -/
theorem respondInstr_eq_of_mod {m : Mnemonic} {x y : Operand}
    (h : x.toNat % 2 ^ m.operandWidth = y.toNat % 2 ^ m.operandWidth) :
    respondInstr (m.instr x) = respondInstr (m.instr y) := by
  cases m with
  | enc => exact congrArg (fun d => rsp (encResult d) .clean false) (dataOf_eq_of_mod h)
  | encx => exact congrArg (fun d => rsp (encxResult d) .clean false) (dataOf_eq_of_mod h)
  | syn => exact congrArg (fun c => rsp (syndrome c) .clean false) (word23Of_eq_of_mod h)
  | wgt => exact congrArg rspWgt (eq_of_mod_24 h)
  | dec => exact congrArg (fun r => decResponse r (search r).found (search r).codeword) (word23Of_eq_of_mod h)
  | decx => exact congrArg rspDecx (eq_of_mod_24 h)

/-- Settles O25: the two commands complete with one response, and a completion depends on the response alone. -/
theorem operandBitsAboveTheWidthAreIgnored : Obligations.OperandBitsAboveTheWidthAreIgnored := by
  refine ⟨rfl, fun m x y s h => ⟨complete s (respondInstr (m.instr x)), exec_eq _ s, ?_, ?_⟩⟩
  · rw [exec_eq, respondInstr_eq_of_mod h]
  · rw [respond_encode, respond_encode, respondInstr_eq_of_mod h]

/-- Bits of a response below bit 24 are bits of its result (30_encoding.md R51). -/
theorem extractLsb'_rsp (res : Word24) (st : DecodeStatus) (pm : Bool) {start len : Nat} (h : start + len ≤ 24) :
    (rsp res st pm).extractLsb' start len = res.extractLsb' start len := by
  apply BitVec.eq_of_getLsbD_eq
  intro j hj
  rw [BitVec.getLsbD_extractLsb', BitVec.getLsbD_extractLsb', getLsbD_rsp, if_pos (by omega)]

theorem zext24_bit23 (c : Word23) : (zext24 c).extractLsb' 23 1 = 0#1 := by
  apply BitVec.eq_of_getLsbD_eq
  intro j hj
  simp [zext24]

theorem syndrome_bit23 (c : Word23) : (syndrome c).extractLsb' 23 1 = 0#1 := by
  apply BitVec.eq_of_getLsbD_eq
  intro j hj
  have htop : (div12 c).getLsbD (23 + j - 12) = false := BitVec.getLsbD_of_ge _ _ (by omega)
  simp [syndrome, htop]

theorem syndrome_low12 (c : Word23) : (syndrome c).extractLsb' 0 12 = 0#12 := by
  apply BitVec.eq_of_getLsbD_eq
  intro j hj
  simp [syndrome, hj]

/-- The weight of a 24-bit word is at most 24 (42_weight.md R75). -/
theorem weight_le (x : Word24) : weight x ≤ 24 := by
  rw [weight_eq_popcount]
  exact List.countP_le_length.trans_eq List.length_range

theorem wgtResult_high19 (x : Word24) : (wgtResult x).extractLsb' 5 19 = 0#19 := by
  have hlt : weight x < 2 ^ 5 := (weight_le x).trans_lt (by decide)
  apply BitVec.eq_of_toNat_eq
  rw [wgtResult, BitVec.extractLsb'_toNat, BitVec.toNat_ofNat, Nat.mod_eq_of_lt (hlt.trans (by decide)),
    Nat.shiftRight_eq_div_pow, Nat.div_eq_of_lt hlt]
  rfl

/-- The result of DEC is a 23-bit word, the search's codeword or the received word (43_decoder.md R91). -/
theorem decResponse_result (r : Word23) (found : Bool) (c : Word23) :
    ∃ c' st, decResponse r found c = rsp (zext24 c') st false := by
  cases found
  · exact ⟨r, .uncorrectable, rfl⟩
  · exact ⟨c, decStatus (flips c r), rfl⟩

/-- Settles O26: the bits of a response below 24 are those of its result, and each result is 0 above its width. -/
theorem resultBitsAboveTheWidthAreZero : Obligations.ResultBitsAboveTheWidthAreZero := by
  intro x
  simp only [respond_encode]
  refine ⟨?_, ?_, ?_, ?_, ?_⟩
  · exact (extractLsb'_rsp _ _ _ le_rfl).trans (zext24_bit23 _)
  · exact (extractLsb'_rsp _ _ _ le_rfl).trans (syndrome_bit23 _)
  · exact (extractLsb'_rsp _ _ _ (by decide)).trans (syndrome_low12 _)
  · exact (extractLsb'_rsp _ _ _ le_rfl).trans (wgtResult_high19 _)
  · obtain ⟨c, st, h⟩ := decResponse_result (word23Of x) (search (word23Of x)).found (search (word23Of x)).codeword
    exact (congrArg (·.extractLsb' 23 1) h).trans ((extractLsb'_rsp _ _ _ le_rfl).trans (zext24_bit23 c))

end Sys2Proof.Machine
end

section
/-! A codeword has syndrome 0, so the search accepts it at its first probe and decoding gives its data back
(30_encoding.md R58; 40_encoder.md R65; 43_decoder.md R90). -/

namespace Sys2Proof.Machine

/-- Division is linear (41_syndrome.md R70). -/
theorem div12_xor (a b : Word23) : div12 (a ^^^ b) = div12 a ^^^ div12 b := by
  rw [div12, divSteps_xor, BitVec.extractLsb'_xor]
  rfl

/-- While the low bits are 0, G is never applied and division is a shift (41_syndrome.md R71). -/
theorem divSteps_of_low_zero (n : Nat) {v : Word23} (h : ∀ j < n, v.getLsbD j = false) : divSteps n v = v >>> n := by
  induction n generalizing v with
  | zero => exact (BitVec.ushiftRight_zero v).symm
  | succ n ih =>
    have hstep : divStep v = v >>> 1 := by rw [divStep, h 0 n.succ_pos, if_neg Bool.false_ne_true]
    have hlow : ∀ j < n, (v >>> 1).getLsbD j = false := fun j hj => by
      rw [BitVec.getLsbD_ushiftRight]
      exact h (1 + j) (by omega)
    rw [divSteps, hstep, ih hlow, ← BitVec.shiftRight_add, Nat.add_comm]

/-- The bits of a word with a check field over a data field (40_encoder.md R63). -/
theorem getLsbD_check_append (k : Check) (d : Data) (j : Nat) :
    (k ++ d : Word23).getLsbD j = if j < 12 then d.getLsbD j else k.getLsbD (j - 12) :=
  BitVec.getLsbD_append

/-- A check field over data 0 is its own remainder (41_syndrome.md R71). -/
theorem div12_check_append_zero (k : Check) : div12 (k ++ 0#12) = k := by
  have hlow : ∀ j < 12, (k ++ 0#12 : Word23).getLsbD j = false := fun j hj => by
    rw [getLsbD_check_append, if_pos hj, BitVec.getLsbD_zero]
  rw [div12, divIter, divSteps_of_low_zero 12 hlow]
  apply BitVec.eq_of_getLsbD_eq
  intro j hj
  rw [BitVec.getLsbD_extractLsb', BitVec.getLsbD_ushiftRight, getLsbD_check_append]
  simp [hj]

theorem codeword23_eq_xor (d : Data) : codeword23 d = (checkOf d ++ 0#12) ^^^ d.setWidth 23 := by
  apply BitVec.eq_of_getLsbD_eq
  intro j hj
  rw [codeword23, BitVec.getLsbD_xor, BitVec.getLsbD_setWidth, getLsbD_check_append, getLsbD_check_append]
  by_cases hj12 : j < 12
  · simp [hj12, hj]
  · simp [hj12, BitVec.getLsbD_of_ge d j (Nat.le_of_not_lt hj12)]

/-- Every codeword is divisible by G: its check field cancels the remainder of its data (40_encoder.md R65). -/
theorem div12_codeword23 (d : Data) : div12 (codeword23 d) = 0#11 := by
  rw [codeword23_eq_xor, div12_xor, div12_check_append_zero, checkOf, BitVec.xor_self]

theorem syndrome_codeword23 (d : Data) : syndrome (codeword23 d) = 0#24 := by
  rw [syndrome, div12_codeword23]
  rfl

theorem rotl23_zero (v : Word23) : rotl23 v 0 = v := by
  rw [rotl23, BitVec.shiftLeft_zero, BitVec.ushiftRight_eq_zero (Nat.le_refl 23), BitVec.or_zero]

theorem rotr23_zero (v : Word23) : rotr23 v 0 = v := rotl23_zero v

/-- A word with syndrome 0 is accepted at the first probe, and is its own codeword (43_decoder.md R90). -/
theorem search_of_syndrome_zero {c : Word23} (h : syndrome c = 0#24) : search c = ⟨c, some ⟨0, none⟩⟩ := by
  have hword : probedWord c ⟨0, none⟩ = c := rotl23_zero c
  have hsyndrome : probeSyndrome c ⟨0, none⟩ = 0#24 := by rw [probeSyndrome, hword, h]
  have haccepts : accepts c ⟨0, none⟩ = true := by
    rw [accepts, hsyndrome]
    decide
  have hfirst : ∀ q : Probe, q.number < Probe.number ⟨0, none⟩ → accepts c q = false := fun q hq =>
    absurd hq q.number_pos.not_gt
  have hreconstruct : reconstruct c 0#24 0 = c := by simp [reconstruct, rotr23_zero]
  rw [search_of_first haccepts hfirst, hword, hsyndrome]
  exact congrArg (SearchResult.mk · _) hreconstruct

/-- The search leaves a codeword as it is (43_decoder.md R90). -/
theorem search_codeword23 (d : Data) : search (codeword23 d) = ⟨codeword23 d, some ⟨0, none⟩⟩ :=
  search_of_syndrome_zero (syndrome_codeword23 d)

theorem flips_self (c : Word23) : flips c c = 0 := by
  rw [flips, BitVec.xor_self]
  rfl

theorem word23Of_zext24 (c : Word23) : word23Of (zext24 c) = c := by
  apply BitVec.eq_of_getLsbD_eq
  intro j hj
  simp [word23Of, zext24, hj, Nat.lt_succ_of_lt hj]

/-- The bits of an extended word (40_encoder.md R64). -/
theorem getLsbD_withParity (p : Bool) (c : Word23) (j : Nat) :
    (withParity p c).getLsbD j = if j < 23 then c.getLsbD j else (BitVec.ofBool p).getLsbD (j - 23) :=
  BitVec.getLsbD_append

theorem word23Of_withParity (p : Bool) (c : Word23) : word23Of (withParity p c) = c := by
  apply BitVec.eq_of_getLsbD_eq
  intro j hj
  rw [word23Of, BitVec.getLsbD_extractLsb', getLsbD_withParity]
  simp [hj]

theorem parityBit_withParity (p : Bool) (c : Word23) : parityBit (withParity p c) = p := by
  rw [parityBit, getLsbD_withParity]
  simp

/-- ENCX sets bit 23 of the codeword to its parity (40_encoder.md R64). -/
theorem encxResult_eq_withParity (d : Data) : encxResult d = withParity (parity23 (encResult d)) (codeword23 d) := by
  apply BitVec.eq_of_getLsbD_eq
  intro j hj
  rw [encxResult, getLsbD_withParity, BitVec.getLsbD_or, BitVec.getLsbD_shiftLeft]
  generalize parity23 (encResult d) = p
  by_cases hj23 : j < 23
  · simp [encResult, zext24, hj23, hj]
  · obtain rfl : j = 23 := by omega
    simp [encResult, zext24]

/-- DEC gives a codeword back unchanged, Clean (43_decoder.md R91). -/
theorem rspDec_encResult (d : Data) : rspDec (encResult d) = rsp (encResult d) .clean false := by
  have hword : word23Of (encResult d) = codeword23 d := word23Of_zext24 _
  simp only [rspDec, hword, search_codeword23, SearchResult.found, decResponse, Option.isSome_some, if_true, flips_self]
  rfl

/-- DECX gives an extended codeword back unchanged, Clean (43_decoder.md R94). -/
theorem rspDecx_encxResult (d : Data) : rspDecx (encxResult d) = rsp (encxResult d) .clean false := by
  rw [encxResult_eq_withParity]
  have hdist : extendedDistance (flips (codeword23 d) (codeword23 d))
      (parityMismatch (codeword23 d) (withParity (parity23 (encResult d)) (codeword23 d))) = 0 := by
    rw [flips_self, parityMismatch, parityBit_withParity, encResult, Bool.xor_self]
    rfl
  simp only [rspDecx, word24Of, word23Of_withParity, search_codeword23, SearchResult.found, decxResponse,
    Option.isSome_some, if_true, hdist]
  rfl

theorem data_of_codeword23 (d : Data) : (codeword23 d).extractLsb' 0 12 = d := by
  apply BitVec.eq_of_getLsbD_eq
  intro j hj
  rw [BitVec.getLsbD_extractLsb', codeword23, getLsbD_check_append]
  simp [hj]

/-- The payload bits of a word are those of its basic part (30_encoding.md R58). -/
theorem extractLsb'_word23Of (x : Word24) : (word23Of x).extractLsb' 0 12 = x.extractLsb' 0 12 := by
  apply BitVec.eq_of_getLsbD_eq
  intro j hj
  simp [word23Of, hj, Nat.lt_trans hj]

theorem data_of_encResult (d : Data) : (encResult d).extractLsb' 0 12 = d := by
  rw [← extractLsb'_word23Of, encResult, word23Of_zext24, data_of_codeword23]

theorem data_of_encxResult (d : Data) : (encxResult d).extractLsb' 0 12 = d := by
  rw [← extractLsb'_word23Of, encxResult_eq_withParity, word23Of_withParity, data_of_codeword23]

theorem dataOf_setWidth (d : Data) : dataOf (d.setWidth 24) = d := by
  apply BitVec.eq_of_getLsbD_eq
  intro j hj
  simp [dataOf, hj, Nat.lt_trans hj]

theorem respond_enc_data (d : Data) :
    respond (encode (Mnemonic.enc.instr (d.setWidth 24))) = rsp (encResult d) .clean false := by
  rw [respond_encode, Mnemonic.instr, respondInstr, rspEnc, dataOf_setWidth]

theorem respond_encx_data (d : Data) :
    respond (encode (Mnemonic.encx.instr (d.setWidth 24))) = rsp (encxResult d) .clean false := by
  rw [respond_encode, Mnemonic.instr, respondInstr, rspEncx, dataOf_setWidth]

theorem respond_dec_encResult (d : Data) :
    respond (encode (Mnemonic.dec.instr (encResult d))) = rsp (encResult d) .clean false := by
  rw [respond_encode, Mnemonic.instr, respondInstr, rspDec_encResult]

theorem respond_decx_encxResult (d : Data) :
    respond (encode (Mnemonic.decx.instr (encxResult d))) = rsp (encxResult d) .clean false := by
  rw [respond_encode, Mnemonic.instr, respondInstr, rspDecx_encxResult]

/-- The value of a pseudo-encode is the RESULT field (30_encoding.md R58). -/
theorem pseudoValue_encode (v : Variant) (n : Nat) (res : Word24) (st : DecodeStatus) (pm : Bool) :
    pseudoValue (.encode v n) (rsp res st pm) = .result res := by
  rw [pseudoValue, resultField_rsp]

/-- The value of a basic pseudo-decode is the payload and STATUS (30_encoding.md R58). -/
theorem pseudoValue_decode_basic (n : Nat) (res : Word24) (st : DecodeStatus) (pm : Bool) :
    pseudoValue (.decode .basic n) (rsp res st pm) = .decoded (res.extractLsb' 0 12) st.bits none := by
  rw [pseudoValue, extractLsb'_rsp _ _ _ (by decide), statusField_rsp]

/-- The value of an extended pseudo-decode is the payload, STATUS and PMISM (30_encoding.md R58). -/
theorem pseudoValue_decode_extended (n : Nat) (res : Word24) (st : DecodeStatus) (pm : Bool) :
    pseudoValue (.decode .extended n) (rsp res st pm) = .decoded (res.extractLsb' 0 12) st.bits (some pm) := by
  rw [pseudoValue, extractLsb'_rsp _ _ _ (by decide), statusField_rsp, pmismField_rsp]

/-- A line with a payload assembles to the command with that payload as its operand. -/
theorem assemble_command_data (m : Mnemonic) (d : Data) :
    (AsmLine.command m d.toNat).assemble = some (encode (m.instr (d.setWidth 24))) := by
  rw [← assemble_command_toNat, BitVec.toNat_setWidth_of_le (by decide)]

/-- Settles O5: both encoders respond with the codeword, both decoders give a codeword back Clean, and its low bits are
the payload. -/
theorem pseudoEncodeThenDecodeGivesTheData : Obligations.PseudoEncodeThenDecodeGivesTheData := by
  intro d
  refine ⟨⟨_, _, encResult d, assemble_command_data .enc d, ?_, assemble_command_toNat .dec (encResult d), ?_⟩,
    ⟨_, _, encxResult d, assemble_command_data .encx d, ?_, assemble_command_toNat .decx (encxResult d), ?_⟩⟩
  · rw [respond_enc_data, pseudoValue_encode]
  · rw [respond_dec_encResult, pseudoValue_decode_basic, data_of_encResult, DecodeStatus.bits]
  · rw [respond_encx_data, pseudoValue_encode]
  · rw [respond_decx_encxResult, pseudoValue_decode_extended, data_of_encxResult, DecodeStatus.bits]

end Sys2Proof.Machine
end

section
/-! The number of 1 bits under the operations on words, and induction on a word bit by bit (42_weight.md R74). -/

namespace Sys2Proof.Machine

@[simp] theorem popcount_zero (n : Nat) : popcount 0#n = 0 := by simp [popcount]

theorem popcount_le {n : Nat} (v : BitVec n) : popcount v ≤ n :=
  List.countP_le_length.trans_eq List.length_range

theorem popcount_eq_zero_iff {n : Nat} {v : BitVec n} : popcount v = 0 ↔ v = 0#n := by
  refine ⟨fun h => BitVec.eq_of_getLsbD_eq fun j hj => ?_, fun h => h ▸ popcount_zero n⟩
  simpa using List.countP_eq_zero.1 h j (List.mem_range.2 hj)

theorem popcount_twoPow {n j : Nat} (hj : j < n) : popcount (BitVec.twoPow n j) = 1 := by
  have hbits : popcount (BitVec.twoPow n j) = (List.range n).count j :=
    List.countP_congr fun i _ => by simpa [BitVec.getLsbD_twoPow, hj] using eq_comm
  rw [hbits, List.count_eq_one_of_mem List.nodup_range (List.mem_range.2 hj)]

theorem popcount_and_twoPow {n j : Nat} (v : BitVec n) (hj : j < n) :
    popcount (v &&& BitVec.twoPow n j) = (v.getLsbD j).toNat := by
  rw [BitVec.and_twoPow]
  cases v.getLsbD j
  · exact popcount_zero n
  · exact popcount_twoPow hj

/-- A bit set in both words is lost from the XOR, twice. -/
theorem popcount_xor_add {n : Nat} (a b : BitVec n) :
    popcount (a ^^^ b) + 2 * popcount (a &&& b) = popcount a + popcount b := by
  simp only [popcount, BitVec.getLsbD_xor, BitVec.getLsbD_and]
  induction List.range n with
  | nil => rfl
  | cons j js ih =>
    simp only [List.countP_cons]
    cases a.getLsbD j <;> cases b.getLsbD j <;> simp <;> omega

theorem popcount_append {m n : Nat} (a : BitVec m) (b : BitVec n) : popcount (a ++ b) = popcount a + popcount b := by
  have hlow : ((List.range n).countP fun j => (a ++ b).getLsbD j) = popcount b :=
    List.countP_congr fun j hj => by simp [BitVec.getLsbD_append, List.mem_range.1 hj]
  have hhigh : ((List.range m).countP ((fun j => (a ++ b).getLsbD j) ∘ (n + ·))) = popcount a :=
    List.countP_congr fun j _ => by simp [BitVec.getLsbD_append]
  have hrange : List.range (m + n) = List.range n ++ (List.range m).map (n + ·) := by
    rw [Nat.add_comm, List.range_add]
  rw [popcount, hrange, List.countP_append, List.countP_map, hlow, hhigh, Nat.add_comm]

/-- Some 1 bit of a nonzero word can be cleared. -/
theorem exists_popcount_xor_twoPow {n k : Nat} {v : BitVec n} (h : popcount v = k + 1) :
    ∃ j < n, popcount (v ^^^ BitVec.twoPow n j) = k := by
  obtain ⟨j, hmem, hbit⟩ := List.countP_pos_iff.1 (h ▸ k.succ_pos : 0 < popcount v)
  have hj := List.mem_range.1 hmem
  have hxor := popcount_xor_add v (BitVec.twoPow n j)
  rw [popcount_and_twoPow v hj, popcount_twoPow hj, hbit, Bool.toNat_true] at hxor
  exact ⟨j, hj, by omega⟩

theorem xor_twoPow_cancel {n : Nat} (v : BitVec n) (j : Nat) :
    v ^^^ BitVec.twoPow n j ^^^ BitVec.twoPow n j = v := by
  rw [BitVec.xor_assoc, BitVec.xor_self, BitVec.xor_zero]

theorem eq_twoPow_of_popcount_eq_one {n : Nat} {v : BitVec n} (h : popcount v = 1) :
    ∃ j < n, v = BitVec.twoPow n j := by
  obtain ⟨j, hj, hzero⟩ := exists_popcount_xor_twoPow h
  refine ⟨j, hj, ?_⟩
  rw [← xor_twoPow_cancel v j, popcount_eq_zero_iff.1 hzero, BitVec.zero_xor]

theorem eq_xor_twoPow_of_popcount_eq_two {n : Nat} {v : BitVec n} (h : popcount v = 2) :
    ∃ i < n, ∃ j < n, v = BitVec.twoPow n i ^^^ BitVec.twoPow n j := by
  obtain ⟨j, hj, hone⟩ := exists_popcount_xor_twoPow h
  obtain ⟨i, hi, heq⟩ := eq_twoPow_of_popcount_eq_one hone
  exact ⟨i, hi, j, hj, by rw [← heq, xor_twoPow_cancel]⟩

/-- What holds of 0 and survives the flip of any bit holds of every word. -/
theorem xor_twoPow_induction {n : Nat} {P : BitVec n → Prop} (zero : P 0#n)
    (flip : ∀ v, ∀ j < n, P v → P (v ^^^ BitVec.twoPow n j)) (v : BitVec n) : P v := by
  induction hk : popcount v generalizing v with
  | zero => exact popcount_eq_zero_iff.1 hk ▸ zero
  | succ k ih =>
    obtain ⟨j, hj, hpop⟩ := exists_popcount_xor_twoPow hk
    rw [← xor_twoPow_cancel v j]
    exact flip _ j hj (ih _ hpop)

theorem toNat_append_assoc {l m n : Nat} (x : BitVec l) (y : BitVec m) (z : BitVec n) :
    (x ++ (y ++ z)).toNat = (x ++ y ++ z).toNat := by
  rw [BitVec.append_assoc', BitVec.toNat_cast]

/-- f(a ^ b) = f(a) ^ f(b): the linearity of the shared units (41_syndrome.md R70). -/
def XorLinear {m n : Nat} (f : BitVec m → BitVec n) : Prop := ∀ a b, f (a ^^^ b) = f a ^^^ f b

theorem XorLinear.comp {k m n : Nat} {f : BitVec m → BitVec n} {g : BitVec k → BitVec m} (hf : XorLinear f)
    (hg : XorLinear g) : XorLinear fun v => f (g v) := fun a b => by
  simp only [hg a b, hf (g a) (g b)]

theorem XorLinear.map_zero {m n : Nat} {f : BitVec m → BitVec n} (hf : XorLinear f) : f 0#m = 0#n := by
  simpa using hf 0#m 0#m

/-- Two linear functions that agree on the one-bit words are equal. -/
theorem XorLinear.eq_of_twoPow {m n : Nat} {f g : BitVec m → BitVec n} (hf : XorLinear f) (hg : XorLinear g)
    (h : ∀ j : Fin m, f (BitVec.twoPow m j) = g (BitVec.twoPow m j)) (v : BitVec m) : f v = g v := by
  induction v using xor_twoPow_induction with
  | zero => rw [hf.map_zero, hg.map_zero]
  | flip v j hj ih => rw [hf, hg, ih, h ⟨j, hj⟩]

end Sys2Proof.Machine
end

section
/-! The parity fold (40_encoder.md R60). -/

namespace Sys2Proof.Machine

/-- The XOR of the low n bits is the parity of their number of 1 bits. -/
theorem xorFold_toNat (v : Word24) (n : Nat) :
    (xorFold v n).toNat = ((List.range n).countP fun j => v.getLsbD j) % 2 := by
  induction n with
  | zero => rfl
  | succ n ih =>
    rw [List.range_succ, List.countP_append, List.countP_singleton, Nat.add_mod, ← ih, xorFold]
    cases v.getLsbD n <;> cases xorFold v n <;> rfl

theorem parity23_toNat (v : Word24) : (parity23 v).toNat = popcount (v.extractLsb' 0 23) % 2 := by
  have hlow : popcount (v.extractLsb' 0 23) = (List.range 23).countP fun j => v.getLsbD j :=
    List.countP_congr fun j hj => by simp [List.mem_range.1 hj]
  rw [parity23, xorFold_toNat, hlow]

theorem parity23_zext24 (c : Word23) : (parity23 (zext24 c)).toNat = popcount c % 2 :=
  (parity23_toNat (zext24 c)).trans (congrArg (popcount · % 2) (word23Of_zext24 c))

theorem popcount_ofBool (p : Bool) : popcount (BitVec.ofBool p) = p.toNat := by
  cases p <;> rfl

theorem popcount_withParity (p : Bool) (c : Word23) : popcount (withParity p c) = p.toNat + popcount c :=
  (popcount_append (BitVec.ofBool p) c).trans (congrArg (· + popcount c) (popcount_ofBool p))

/-- Settles O8: the fold is the parity of the 1 bits it reads, and the bit appended makes up an odd number. -/
theorem parityMakesTheWeightEven : Obligations.ParityMakesTheWeightEven := by
  refine ⟨parity23_toNat, fun c => ?_⟩
  have hweight : popcount (withParity (parity23 (zext24 c)) c) = popcount c % 2 + popcount c := by
    rw [popcount_withParity, parity23_zext24]
  have heven : popcount (withParity (parity23 (zext24 c)) c) % 2 = 0 := by omega
  exact heven

end Sys2Proof.Machine
end

section
/-! Division by G (40_encoder.md R59, R61, R67): what an iteration does, how many bits are left, and the polynomial
remainder by long division. -/

namespace Sys2Proof.Machine

theorem divSteps_succ (n : Nat) (v : Word23) :
    divSteps (n + 1) v = divSteps n (if v.getLsbD 0 then (v ^^^ 0xAE3#23) >>> 1 else v >>> 1) := by
  rw [divSteps, divStep]
  cases v.getLsbD 0 <;> rfl

/-- G has 12 bits, so an iteration on a word of at least 12 bits leaves one bit less. -/
theorem divStep_lt {v : Word23} {k : Nat} (hk : 11 ≤ k) (h : v.toNat < 2 ^ (k + 1)) : (divStep v).toNat < 2 ^ k := by
  have hshift {u : Word23} (hu : u.toNat < 2 ^ (k + 1)) : (u >>> 1).toNat < 2 ^ k := by
    rw [BitVec.toNat_ushiftRight, Nat.shiftRight_eq_div_pow, Nat.pow_one]
    omega
  have hgen : (generator.setWidth 23).toNat < 2 ^ (k + 1) :=
    (by decide : (generator.setWidth 23).toNat < 2 ^ 12).trans_le (Nat.pow_le_pow_right (by decide) (by omega))
  refine hshift ?_
  split
  · exact Nat.xor_lt_two_pow h hgen
  · exact h

theorem divSteps_lt (n : Nat) {v : Word23} (h : v.toNat < 2 ^ (11 + n)) : (divSteps n v).toNat < 2 ^ 11 := by
  induction n generalizing v with
  | zero => exact h
  | succ n ih => exact ih (divStep_lt (Nat.le_add_right 11 n) h)

/-- Settles O7: twelve iterations take 23 bits to 11. -/
theorem twelveIterationsLeaveElevenBits : Obligations.TwelveIterationsLeaveElevenBits := by
  intro v
  have hlt : (divSteps 12 v).toNat < 2 ^ 11 := divSteps_lt 12 v.isLt
  refine ⟨fun n => divSteps_succ n v, BitVec.eq_of_toNat_eq ?_, BitVec.eq_of_toNat_eq ?_⟩
  · rw [BitVec.extractLsb'_toNat, Nat.shiftRight_eq_div_pow, Nat.div_eq_of_lt hlt]
    rfl
  · rw [BitVec.toNat_setWidth_of_le (by decide), div12, BitVec.extractLsb'_toNat, Nat.shiftRight_zero]
    exact Nat.mod_eq_of_lt hlt

theorem div12_linear : XorLinear div12 := div12_xor

theorem polyStep_linear (k : Nat) : XorLinear (polyStep · k) := by
  intro a b
  simp only [polyStep, BitVec.getLsbD_xor]
  generalize generator.setWidth 34 <<< k = g
  cases a.getLsbD (11 + k) <;> cases b.getLsbD (11 + k)
  · rfl
  · exact BitVec.xor_assoc a b g
  · exact (by ac_rfl : a ^^^ b ^^^ g = a ^^^ g ^^^ b)
  · calc a ^^^ b = a ^^^ b ^^^ (g ^^^ g) := by rw [BitVec.xor_self, BitVec.xor_zero]
      _ = a ^^^ g ^^^ (b ^^^ g) := by ac_rfl

theorem polyReduce_linear (n : Nat) : XorLinear (polyReduce n) := by
  induction n with
  | zero => exact fun _ _ => rfl
  | succ k ih => exact ih.comp (polyStep_linear k)

theorem polyMod_linear : XorLinear polyMod := fun a b => by
  rw [polyMod, polyReduce_linear, BitVec.extractLsb'_xor]
  rfl

theorem setWidth_linear (m n : Nat) : XorLinear (BitVec.setWidth n : BitVec m → BitVec n) :=
  fun _ _ => BitVec.setWidth_xor

theorem shiftLeft_linear (n k : Nat) : XorLinear (fun v : BitVec n => v <<< k) :=
  fun a b => BitVec.shiftLeft_xor_distrib a b k

/-- DIV12 is the remainder of v(x) · x^11 (40_encoder.md R61): both are linear, and they agree on the powers of x. -/
theorem div12_eq_polyMod (v : Word23) : div12 v = polyMod (v.setWidth 34 <<< 11) :=
  div12_linear.eq_of_twoPow (polyMod_linear.comp ((shiftLeft_linear 34 11).comp (setWidth_linear 23 34)))
    (by decide +kernel) v

/-- c(x) is congruent to DIV12(c) · x^12, since DIV12(c) is c(x) · x^11 and x^23 is 1 (40_encoder.md R61, R67). -/
theorem polyMod_eq_polyMod_div12 (c : Word23) :
    polyMod (c.setWidth 34) = polyMod ((div12 c).setWidth 34 <<< 12) :=
  (polyMod_linear.comp (setWidth_linear 23 34)).eq_of_twoPow
    (polyMod_linear.comp ((shiftLeft_linear 34 12).comp ((setWidth_linear 11 34).comp div12_linear)))
    (by decide +kernel) c

/-- Settles O6: DIV12 and the long division agree on every word, and G is written out. -/
theorem divisionIsThePolynomialRemainder : Obligations.DivisionIsThePolynomialRemainder :=
  ⟨div12_eq_polyMod, by decide⟩

/-- Settles O15: the long division of the 23 powers of x and of x^23 + 1, run. -/
theorem orderOfXIsTwentyThree : Obligations.OrderOfXIsTwentyThree := by
  unfold Obligations.OrderOfXIsTwentyThree
  decide +kernel

end Sys2Proof.Machine
end

section
/-! The extended code as a self-orthogonal linear code: its weights are multiples of 4, complement to complement, and
none is 4 (40_encoder.md R65, R66). -/

namespace Sys2Proof.Machine

/-- The twelve bits that ENCX puts above the data: the parity bit over the check field (40_encoder.md R64). -/
def redundancy (d : Data) : BitVec 12 := BitVec.ofBool (parity23 (encResult d)) ++ checkOf d

theorem encxResult_eq_append (d : Data) : encxResult d = redundancy d ++ d := by
  rw [encxResult_eq_withParity]
  exact BitVec.eq_of_toNat_eq (toNat_append_assoc _ (checkOf d) d)

theorem xorFold_xor (a b : Word24) (n : Nat) : xorFold (a ^^^ b) n = (xorFold a n ^^ xorFold b n) := by
  induction n with
  | zero => rfl
  | succ n ih =>
    rw [xorFold, xorFold, xorFold, ih, BitVec.getLsbD_xor]
    simp only [Bool.xor_assoc, Bool.xor_left_comm]

theorem checkOf_linear : XorLinear checkOf := div12_linear.comp (setWidth_linear 12 23)

theorem encResult_linear : XorLinear encResult := fun a b => by
  have hword : codeword23 (a ^^^ b) = codeword23 a ^^^ codeword23 b := by
    rw [codeword23, checkOf_linear]
    exact BitVec.xor_append.symm
  rw [encResult, hword]
  exact setWidth_linear 23 24 _ _

theorem redundancy_linear : XorLinear redundancy := fun a b => by
  have hparity : parity23 (encResult (a ^^^ b)) = (parity23 (encResult a) ^^ parity23 (encResult b)) := by
    rw [encResult_linear]
    exact xorFold_xor _ _ 23
  rw [redundancy, hparity, checkOf_linear, ← BitVec.ofBool_xor_ofBool]
  exact BitVec.xor_append.symm

theorem encxResult_linear : XorLinear encxResult := fun a b => by
  rw [encxResult_eq_append, redundancy_linear, encxResult_eq_append, encxResult_eq_append]
  exact BitVec.xor_append.symm

theorem popcount_encxResult (d : Data) : popcount (encxResult d) = popcount (redundancy d) + popcount d := by
  rw [encxResult_eq_append]
  exact popcount_append _ _

/-- Evenness of the common 1 bits with a fixed word passes from the one-bit words to every word. -/
theorem even_popcount_and_of_twoPow {m n : Nat} {f : BitVec m → BitVec n} (hf : XorLinear f) (c : BitVec n)
    (h : ∀ j < m, popcount (f (BitVec.twoPow m j) &&& c) % 2 = 0) (v : BitVec m) : popcount (f v &&& c) % 2 = 0 := by
  induction v using xor_twoPow_induction with
  | zero => rw [hf.map_zero, BitVec.zero_and, popcount_zero]
  | flip v j hj ih =>
    have hdistrib : (f v ^^^ f (BitVec.twoPow m j)) &&& c = (f v &&& c) ^^^ (f (BitVec.twoPow m j) &&& c) :=
      BitVec.eq_of_getLsbD_eq fun i _ => by simp [Bool.and_xor_distrib_right]
    have hxor := popcount_xor_add (f v &&& c) (f (BitVec.twoPow m j) &&& c)
    have hbasis := h j hj
    rw [hf, hdistrib]
    omega

/-- The extended code is self-orthogonal. -/
theorem even_popcount_encxResult_and (d e : Data) : popcount (encxResult d &&& encxResult e) % 2 = 0 := by
  have hbasis : ∀ i j : Fin 12,
      popcount (encxResult (BitVec.twoPow 12 i) &&& encxResult (BitVec.twoPow 12 j)) % 2 = 0 := by decide +kernel
  refine even_popcount_and_of_twoPow encxResult_linear _ (fun i hi => ?_) d
  rw [BitVec.and_comm]
  exact even_popcount_and_of_twoPow encxResult_linear _ (fun j hj => hbasis ⟨j, hj⟩ ⟨i, hi⟩) e

/-- The weights of the extended code are multiples of 4. -/
theorem popcount_encxResult_mod_four (d : Data) : popcount (encxResult d) % 4 = 0 := by
  have hbasis : ∀ j : Fin 12, popcount (encxResult (BitVec.twoPow 12 j)) % 4 = 0 := by decide +kernel
  induction d using xor_twoPow_induction with
  | zero => rw [encxResult_linear.map_zero, popcount_zero]
  | flip d j hj ih =>
    have hxor := popcount_xor_add (encxResult d) (encxResult (BitVec.twoPow 12 j))
    have hand := even_popcount_encxResult_and d (BitVec.twoPow 12 j)
    have hj4 : popcount (encxResult (BitVec.twoPow 12 j)) % 4 = 0 := hbasis ⟨j, hj⟩
    rw [encxResult_linear]
    omega

/-- The all-ones word is an extended codeword, so complementing the data complements the codeword
(40_encoder.md R64). -/
theorem popcount_encxResult_xor_ones (d : Data) :
    popcount (encxResult (d ^^^ 0xFFF#12)) + popcount (encxResult d) = 24 := by
  have hones : encxResult 0xFFF#12 = BitVec.allOnes 24 := by decide +kernel
  have hxor := popcount_xor_add (encxResult d) (BitVec.allOnes 24)
  have h24 : popcount (BitVec.allOnes 24) = 24 := by decide
  rw [BitVec.and_allOnes] at hxor
  rw [encxResult_linear, hones]
  omega

/-- Self-orthogonality against the codeword of one data bit: the redundancy determines each data bit. -/
theorem even_redundancy_and_add_bit (d : Data) {j : Nat} (hj : j < 12) :
    (popcount (redundancy d &&& redundancy (BitVec.twoPow 12 j)) + (d.getLsbD j).toNat) % 2 = 0 := by
  have heven := even_popcount_encxResult_and d (BitVec.twoPow 12 j)
  rwa [encxResult_eq_append, encxResult_eq_append, BitVec.and_append, popcount_append,
    popcount_and_twoPow d hj] at heven

theorem eq_of_even_toNat_add : ∀ {p q : Bool}, (p.toNat + q.toNat) % 2 = 0 → q = p := by decide

theorem eq_zero_of_redundancy_eq_zero {d : Data} (h : redundancy d = 0#12) : d = 0#12 :=
  BitVec.eq_of_getLsbD_eq fun j hj => by
    have heven := even_redundancy_and_add_bit d hj
    rw [h, BitVec.zero_and, popcount_zero] at heven
    exact (eq_of_even_toNat_add (p := false) heven).trans BitVec.getLsbD_zero.symm

/-- Redundancy with the one bit i comes from the data whose bit j is bit i of the redundancy of bit j. -/
theorem popcount_of_redundancy_eq_twoPow {d : Data} {i : Nat} (hi : i < 12) (h : redundancy d = BitVec.twoPow 12 i) :
    popcount d = (List.range 12).countP fun j => (redundancy (BitVec.twoPow 12 j)).getLsbD i :=
  List.countP_congr fun j hj => by
    have heven := even_redundancy_and_add_bit d (List.mem_range.1 hj)
    rw [h, BitVec.and_comm, popcount_and_twoPow _ hi] at heven
    rw [eq_of_even_toNat_add heven]

/-- No extended codeword has weight 4. Its data or its redundancy would have at most two 1 bits: for the data these are
few words, and redundancy of weight 0 or 1 determines the data. -/
theorem popcount_encxResult_ne_four (d : Data) : popcount (encxResult d) ≠ 4 := by
  have hone : ∀ i : Fin 12, popcount (encxResult (BitVec.twoPow 12 i)) ≠ 4 := by decide +kernel
  have htwo : ∀ i j : Fin 12, popcount (encxResult (BitVec.twoPow 12 i ^^^ BitVec.twoPow 12 j)) ≠ 4 := by decide +kernel
  have hcolumn : ∀ i : Fin 12,
      ((List.range 12).countP fun j => (redundancy (BitVec.twoPow 12 j)).getLsbD i) ≠ 3 := by decide +kernel
  intro hfour
  have hsum := popcount_encxResult d
  obtain h | h | h | h | h : popcount d = 0 ∨ popcount d = 1 ∨ popcount d = 2 ∨ popcount d = 3 ∨ popcount d = 4 := by
    omega
  · rw [popcount_eq_zero_iff.1 h, encxResult_linear.map_zero, popcount_zero] at hfour
    omega
  · obtain ⟨i, hi, rfl⟩ := eq_twoPow_of_popcount_eq_one h
    exact hone ⟨i, hi⟩ hfour
  · obtain ⟨i, hi, j, hj, rfl⟩ := eq_xor_twoPow_of_popcount_eq_two h
    exact htwo ⟨i, hi⟩ ⟨j, hj⟩ hfour
  · obtain ⟨i, hi, hred⟩ := eq_twoPow_of_popcount_eq_one (v := redundancy d) (by omega)
    exact hcolumn ⟨i, hi⟩ ((popcount_of_redundancy_eq_twoPow hi hred).symm.trans h)
  · have hred : redundancy d = 0#12 := popcount_eq_zero_iff.1 (by omega)
    rw [eq_zero_of_redundancy_eq_zero hred, popcount_zero] at h
    omega

theorem popcount_encxResult_mem (d : Data) : popcount (encxResult d) ∈ [0, 8, 12, 16, 24] := by
  have hmultiple := popcount_encxResult_mod_four d
  have hne := popcount_encxResult_ne_four d
  have hcompl := popcount_encxResult_xor_ones d
  have hcomplNe := popcount_encxResult_ne_four (d ^^^ 0xFFF#12)
  simp only [List.mem_cons, List.not_mem_nil, or_false]
  omega

/-- ENCX adds the odd 1 bit, if there is one (40_encoder.md R64). -/
theorem popcount_encxResult_eq (d : Data) :
    popcount (encxResult d) = popcount (encResult d) % 2 + popcount (encResult d) := by
  rw [encxResult_eq_withParity, popcount_withParity, encResult, parity23_zext24, popcount_zext24]

/-- An ENC result is an ENCX result without its parity bit, and has 23 bits. -/
theorem popcount_encResult_mem (d : Data) : popcount (encResult d) ∈ [0, 7, 8, 11, 12, 15, 16, 23] := by
  have hx := popcount_encxResult_mem d
  have heq := popcount_encxResult_eq d
  have hle : popcount (encResult d) ≤ 23 := (popcount_zext24 (codeword23 d)).trans_le (popcount_le _)
  simp only [List.mem_cons, List.not_mem_nil, or_false] at hx ⊢
  omega

/-- Every ENC result is a multiple of g(x) (40_encoder.md R65). -/
theorem polyMod_encResult (d : Data) : polyMod ((encResult d).setWidth 34) = 0#11 := by
  have hword : (encResult d).setWidth 34 = (codeword23 d).setWidth 34 :=
    BitVec.eq_of_toNat_eq (by simp [encResult, zext24])
  rw [hword, polyMod_eq_polyMod_div12, div12_codeword23]
  exact polyMod_linear.map_zero

theorem encResult_injective : Function.Injective encResult := fun d d' h => by
  rw [← data_of_encResult d, h, data_of_encResult]

/-- Settles O13: the weights come from those of the extended code; the word of G itself has weight 7. -/
theorem encResultsAreCodewords : Obligations.EncResultsAreCodewords := by
  refine ⟨fun d => ?_, encResult_injective, 0xAE3#12, by decide +kernel⟩
  have hsyndrome : syndrome ((encResult d).extractLsb' 0 23) = 0#24 :=
    (congrArg syndrome (word23Of_zext24 _)).trans (syndrome_codeword23 d)
  have hmem := popcount_encResult_mem d
  refine ⟨data_of_encResult d, polyMod_encResult d, hsyndrome, hmem, fun hne => ?_⟩
  have hpos := mt popcount_eq_zero_iff.1 hne
  simp only [List.mem_cons, List.not_mem_nil, or_false] at hmem
  omega

/-- Settles O14: the multiples of 4 up to 24, without 4 and its complement 20; G with its parity bit has weight 8. -/
theorem encxResultsHaveEvenWeight : Obligations.EncxResultsHaveEvenWeight := by
  refine ⟨fun d => ⟨popcount_encxResult_mem d, fun hne => ?_⟩, 0xAE3#12, by decide +kernel⟩
  have hmem := popcount_encxResult_mem d
  have hpos := mt popcount_eq_zero_iff.1 hne
  simp only [List.mem_cons, List.not_mem_nil, or_false] at hmem
  omega

end Sys2Proof.Machine
end

section
/-! ENC and ENCX complete with their codewords (40_encoder.md R63, R64). -/

namespace Sys2Proof.Machine

/-- A response with STATUS 00 and PMISM 0 is its result under eight 0 bits (30_encoding.md R51). -/
theorem rsp_clean (res : Word24) : rsp res .clean false = 0x00#8 ++ res := rfl

theorem zext24_eq_append (c : Word23) : zext24 c = 0#1 ++ c :=
  BitVec.eq_of_toNat_eq <| by
    rw [zext24, BitVec.toNat_setWidth_of_le (by decide)]
    exact ((BitVec.toNat_append 0#1 c).trans (by simp)).symm

theorem rspEnc_eq (x : Operand) : rspEnc x = 0x00#8 ++ 0#1 ++ checkOf (dataOf x) ++ dataOf x := by
  have hzext : encResult (dataOf x) = 0#1 ++ codeword23 (dataOf x) := zext24_eq_append _
  rw [rspEnc, rsp_clean, hzext]
  exact BitVec.eq_of_toNat_eq ((toNat_append_assoc 0x00#8 0#1 _).trans (toNat_append_assoc _ (checkOf (dataOf x)) _))

theorem rspEncx_eq (x : Operand) :
    rspEncx x = 0x00#8 ++ BitVec.ofNat 1 (popcount (codeword23 (dataOf x)) % 2) ++ codeword23 (dataOf x) := by
  have hbit (p : Bool) : BitVec.ofBool p = BitVec.ofNat 1 p.toNat := by cases p <;> rfl
  rw [rspEncx, rsp_clean, encxResult_eq_withParity, withParity, hbit, encResult, parity23_zext24]
  exact BitVec.eq_of_toNat_eq (toNat_append_assoc 0x00#8 _ (codeword23 (dataOf x)))

/-- The response in the state in which a command completes. -/
theorem rspWord_of_exec {i : Instr} {s t : State} (h : exec i s = .next t) : t.rspWord = respondInstr i := by
  rw [exec_eq, Host.Outcome.next.injEq] at h
  rw [← h, complete_rspWord]

/-- Settles O19: ENC completes with `rspEnc`, which depends on the data bits alone. -/
theorem encCompletesWithTheCodeword : Obligations.EncCompletesWithTheCodeword := by
  refine ⟨fun x => decode_encode (.enc x), fun x s => ⟨_, exec_eq _ s, ?_⟩, fun x s t ht => ⟨?_, ?_, ?_, ?_⟩⟩
  · exact rspEnc_eq x ▸ completed_complete s (rspEnc x)
  · rintro rfl
    exact (rspWord_of_exec ht).trans (by decide +kernel)
  · rintro rfl
    exact (rspWord_of_exec ht).trans (by decide +kernel)
  · rintro rfl
    have hignored : respondInstr (.enc 0x000123#24) = respondInstr (.enc 0xABC123#24) :=
      respondInstr_eq_of_mod (m := .enc) (by decide)
    rw [← ht, exec_eq, exec_eq, hignored]
  · rintro rfl
    exact (rspWord_of_exec ht).trans (by decide +kernel)

/-- Settles O20: ENCX completes with `rspEncx`. -/
theorem encxCompletesWithTheExtendedCodeword : Obligations.EncxCompletesWithTheExtendedCodeword := by
  refine ⟨fun x => decode_encode (.encx x), fun x s => ⟨_, exec_eq _ s, ?_⟩, fun x s t ht => ⟨?_, ?_, ?_, ?_⟩⟩
  · exact rspEncx_eq x ▸ completed_complete s (rspEncx x)
  all_goals
    rintro rfl
    exact (rspWord_of_exec ht).trans (by decide +kernel)

end Sys2Proof.Machine
end

section
/-! The syndrome (41_syndrome.md R68-R72): a word is its data's codeword under a change of the check field, and division
leaves that change. -/

namespace Sys2Proof.Machine

/-- A word is its bits 22:12 over its bits 11:0. -/
theorem check_append_data (v : Word23) : v.extractLsb' 12 11 ++ v.extractLsb' 0 12 = v :=
  (BitVec.extractLsb'_append_extractLsb'_eq_extractLsb' rfl).trans (BitVec.extractLsb'_eq_self)

/-- DIV12 is the check field of the data, as computed against as received (41_syndrome.md R72). -/
theorem div12_eq_checkOf_xor (v : Word23) : div12 v = checkOf (v.extractLsb' 0 12) ^^^ v.extractLsb' 12 11 := by
  generalize hd : v.extractLsb' 0 12 = d
  generalize hk : v.extractLsb' 12 11 = k
  have hsplit : codeword23 d ^^^ ((checkOf d ^^^ k) ++ 0#12) = v := by
    rw [codeword23, BitVec.xor_append, ← BitVec.xor_assoc, BitVec.xor_self, BitVec.zero_xor, BitVec.xor_zero, ← hk, ← hd]
    exact check_append_data v
  rw [← hsplit, div12_linear, div12_codeword23, div12_check_append_zero, BitVec.zero_xor]

theorem syndrome_linear : XorLinear syndrome :=
  (shiftLeft_linear 24 12).comp ((setWidth_linear 11 24).comp div12_linear)

/-- Settles O9: each unit is linear, and a codeword adds 0. -/
theorem syndromeIsLinear : Obligations.SyndromeIsLinear := by
  refine ⟨syndrome_linear, ?_⟩
  rintro _ e ⟨d, rfl⟩
  rw [syndrome_linear, syndrome_codeword23, BitVec.zero_xor]

/-- Settles O11, by the closed form of DIV12. -/
theorem syndromeClosedForm : Obligations.SyndromeClosedForm := fun v => by
  rw [syndrome, div12_eq_checkOf_xor]

/-- The remainder stands in bits 22:12 (41_syndrome.md R68). -/
theorem syndrome_eq_zext24 (c : Word23) : syndrome c = zext24 (div12 c ++ 0#12) := by
  apply BitVec.eq_of_getLsbD_eq
  intro j hj
  rw [syndrome, zext24, BitVec.getLsbD_setWidth, getLsbD_check_append]
  by_cases hj12 : j < 12
  · simp [hj12]
  · simp [hj12, hj]

theorem zext24_injective : Function.Injective zext24 :=
  Function.LeftInverse.injective word23Of_zext24

theorem div12_of_window {v : Word23} (h : v.extractLsb' 0 12 = 0#12) : div12 v = v.extractLsb' 12 11 := by
  rw [div12_eq_checkOf_xor, h, checkOf_linear.map_zero, BitVec.zero_xor]

theorem syndrome_of_window {v : Word23} (h : v.extractLsb' 0 12 = 0#12) : syndrome v = zext24 v := by
  rw [syndrome_eq_zext24, div12_of_window h, ← h, check_append_data]

/-- Settles O10: the data 0 has check field 0, so the remainder is the word's own check field. -/
theorem windowWordIsItsOwnSyndrome : Obligations.WindowWordIsItsOwnSyndrome := fun v h => by
  refine ⟨syndrome_of_window h, BitVec.eq_of_getLsbD_eq fun j hj => ?_⟩
  rw [div12_of_window h, BitVec.getLsbD_setWidth, BitVec.getLsbD_extractLsb', BitVec.getLsbD_ushiftRight]
  by_cases hj11 : j < 11
  · simp [hj11, hj]
  · simp [hj11, BitVec.getLsbD_of_ge v (12 + j) (by omega)]

theorem syndrome_eq_zero_iff_div12 (c : Word23) : syndrome c = 0#24 ↔ div12 c = 0#11 := by
  refine ⟨fun h => ?_, fun h => by rw [syndrome, h]; rfl⟩
  have hword : div12 c ++ 0#12 = 0#23 := zext24_injective ((syndrome_eq_zext24 c).symm.trans h)
  rw [← div12_check_append_zero (div12 c), hword, div12_linear.map_zero]

/-- A word with remainder 0 has the check field of its data (41_syndrome.md R69). -/
theorem div12_eq_zero_iff (c : Word23) : div12 c = 0#11 ↔ c = codeword23 (c.extractLsb' 0 12) := by
  refine ⟨fun h => ?_, fun h => h ▸ div12_codeword23 _⟩
  have hcheck : checkOf (c.extractLsb' 0 12) = c.extractLsb' 12 11 := by
    rwa [div12_eq_checkOf_xor, BitVec.xor_eq_zero_iff] at h
  rw [codeword23, hcheck, check_append_data]

/-- DIV12(c) is determined by c(x) mod g(x): both sides are linear, and they agree on the powers of x
(40_encoder.md R61). -/
theorem div12_eq_div12_polyMod (c : Word23) : div12 c = div12 ((polyMod (c.setWidth 34)).setWidth 23) :=
  div12_linear.eq_of_twoPow
    (div12_linear.comp ((setWidth_linear 11 23).comp (polyMod_linear.comp (setWidth_linear 23 34))))
    (by decide +kernel) c

/-- Remainder 0 is divisibility by g(x): x^11 is invertible modulo g(x), its inverse being x^12 (40_encoder.md R67). -/
theorem div12_eq_zero_iff_polyMod (c : Word23) : div12 c = 0#11 ↔ polyMod (c.setWidth 34) = 0#11 := by
  constructor <;> intro h
  · rw [polyMod_eq_polyMod_div12, h]
    exact polyMod_linear.map_zero
  · rw [div12_eq_div12_polyMod, h]
    exact div12_linear.map_zero

/-- Settles O12: remainder 0 is the check field of the data, and divisibility by g(x). -/
theorem zeroSyndromeExactlyForCodewords : Obligations.ZeroSyndromeExactlyForCodewords := by
  refine ⟨fun c => ?_, encResult_injective⟩
  have hself : syndrome c = 0#24 ↔ c = codeword23 (c.extractLsb' 0 12) :=
    (syndrome_eq_zero_iff_div12 c).trans (div12_eq_zero_iff c)
  refine ⟨hself.trans zext24_injective.eq_iff.symm, ⟨fun h => ⟨_, hself.1 h⟩, ?_⟩,
    (syndrome_eq_zero_iff_div12 c).trans (div12_eq_zero_iff_polyMod c)⟩
  rintro ⟨d, rfl⟩
  exact syndrome_codeword23 d

theorem rspSyn_eq (x : Operand) : rspSyn x = 0x00#8 ++ 0#1 ++ div12 (word23Of x) ++ 0x000#12 := by
  rw [rspSyn, rsp_clean, syndrome_eq_zext24, zext24_eq_append]
  exact BitVec.eq_of_toNat_eq
    ((toNat_append_assoc 0x00#8 0#1 _).trans (toNat_append_assoc _ (div12 (word23Of x)) 0x000#12))

/-- SYN(1 << j) = 1 << j in the window (41_syndrome.md R68, R71). -/
theorem rspSyn_one_shiftLeft {j : Nat} (hlow : 12 ≤ j) (hhigh : j ≤ 22) : rspSyn (1#24 <<< j) = 1#32 <<< j := by
  have hwindow : (word23Of (1#24 <<< j)).extractLsb' 0 12 = 0#12 :=
    BitVec.eq_of_getLsbD_eq fun i hi => by simp [word23Of, hi, show i < j by omega]
  rw [rspSyn, syndrome_of_window hwindow]
  interval_cases j <;> rfl

/-- Settles O21: SYN completes with `rspSyn`. -/
theorem synCompletesWithTheSyndrome : Obligations.SynCompletesWithTheSyndrome := by
  refine ⟨fun x => decode_encode (.syn x), fun x s => ⟨_, exec_eq _ s, ?_⟩, fun x s t ht => ⟨?_, ?_, ?_, ?_, ?_, ?_⟩⟩
  · exact rspSyn_eq x ▸ completed_complete s (rspSyn x)
  case refine_5 =>
    rintro j hlow hhigh rfl
    exact (rspWord_of_exec ht).trans (rspSyn_one_shiftLeft hlow hhigh)
  all_goals
    rintro rfl
    exact (rspWord_of_exec ht).trans (by decide +kernel)

end Sys2Proof.Machine
end

section
/-! WGT completes with the number of 1 bits of its operand (42_weight.md R73-R75). -/

namespace Sys2Proof.Machine

/-- The weight counter's sum written out (42_weight.md R75). -/
theorem weight_eq_sum_nibbleWeight (x : Word24) :
    weight x = nibbleWeight (x.extractLsb' 0 4) + nibbleWeight (x.extractLsb' 4 4) + nibbleWeight (x.extractLsb' 8 4) +
      nibbleWeight (x.extractLsb' 12 4) + nibbleWeight (x.extractLsb' 16 4) + nibbleWeight (x.extractLsb' 20 4) := by
  simp only [weight, nibbleSum, nibble, Nat.zero_add, Nat.reduceMul]

/-- Settles O17: each nibble has the weight of its four bits, so the counter's sum is the number of 1 bits. -/
theorem weightCountsTheOneBits : Obligations.WeightCountsTheOneBits := fun v =>
  ⟨(weight_eq_popcount v).symm.trans (weight_eq_sum_nibbleWeight v), weight_eq_popcount v⟩

/-- Settles O18: the table is read off, and each entry is the count of its index. -/
theorem nibbleWeightTable : Obligations.NibbleWeightTable := ⟨by decide, nibbleWeight_eq_popcount⟩

/-- A weight fits in five bits, as 24 < 2^5 (42_weight.md R75). -/
theorem wgtResult_eq_append (x : Word24) : wgtResult x = 0#19 ++ BitVec.ofNat 5 (popcount x) := by
  have hle : popcount x ≤ 24 := popcount_le x
  have hfits : popcount x % 2 ^ 24 = popcount x % 2 ^ 5 := by omega
  have hlow : (0#19 ++ BitVec.ofNat 5 (popcount x)).toNat = popcount x % 2 ^ 5 :=
    (BitVec.toNat_append _ _).trans (by simp)
  rw [wgtResult, weight_eq_popcount]
  exact BitVec.eq_of_toNat_eq ((BitVec.toNat_ofNat _ _).trans (hfits.trans hlow.symm))

theorem rspWgt_eq (x : Operand) : rspWgt x = 0x00#8 ++ 0#19 ++ BitVec.ofNat 5 (popcount x) := by
  rw [rspWgt, rsp_clean, wgtResult_eq_append]
  exact BitVec.eq_of_toNat_eq (toNat_append_assoc 0x00#8 0#19 (BitVec.ofNat 5 (popcount x)))

/-- Settles O22: WGT completes with `rspWgt`. -/
theorem wgtCompletesWithTheWeight : Obligations.WgtCompletesWithTheWeight := by
  refine ⟨fun x => decode_encode (.wgt x), fun x s => ⟨popcount_le x, _, exec_eq _ s, ?_⟩,
    fun x s t ht => ⟨?_, ?_, ?_, ?_, ?_⟩⟩
  · exact rspWgt_eq x ▸ completed_complete s (rspWgt x)
  all_goals
    rintro rfl
    exact (rspWord_of_exec ht).trans (by decide)

end Sys2Proof.Machine
end

section
/-! The rotations as permutations of the 23 bit positions: they undo each other, are linear, and keep weight and
codewords (43_decoder.md R77). -/

namespace Sys2Proof.Machine

theorem mod23_lt (n : Nat) : n % 23 < 23 := Nat.mod_lt n (by decide)

/-- Bit j moves to bit (j + n) mod 23 (43_decoder.md R77). -/
theorem getLsbD_rotl23_add (v : Word23) {n j : Nat} (hn : n < 23) (hj : j < 23) :
    (rotl23 v n).getLsbD ((j + n) % 23) = v.getLsbD j := by
  rw [rotl23, BitVec.getLsbD_or, BitVec.getLsbD_shiftLeft, BitVec.getLsbD_ushiftRight]
  by_cases hwrap : j + n < 23
  · have hout : v.getLsbD (23 - n + (j + n)) = false := BitVec.getLsbD_of_ge v _ (by omega)
    rw [Nat.mod_eq_of_lt hwrap, hout, Nat.add_sub_cancel, decide_eq_true hwrap,
      decide_eq_false (Nat.not_lt.2 (Nat.le_add_left n j))]
    exact Bool.or_false _
  · obtain ⟨k, hk⟩ := Nat.exists_eq_add_of_le (Nat.le_of_not_lt hwrap)
    have hlow : k < n := by omega
    have hback : 23 - n + k = j := by omega
    rw [hk, Nat.add_mod_left, Nat.mod_eq_of_lt (hlow.trans hn), hback, decide_eq_true hlow, Bool.not_true, Bool.and_false,
      Bool.false_and, Bool.false_or]

/-- Words are equal when they agree on the positions to which a rotation moves the bits. -/
theorem eq_of_getLsbD_add_mod {u v : Word23} (n : Nat)
    (h : ∀ j < 23, u.getLsbD ((j + n) % 23) = v.getLsbD ((j + n) % 23)) : u = v := by
  refine BitVec.eq_of_getLsbD_eq fun k hk => ?_
  have hpos : ((k + 22 * n) % 23 + n) % 23 = k := by
    rw [Nat.mod_add_mod, Nat.add_assoc, ← Nat.succ_mul, Nat.add_mul_mod_self_left, Nat.mod_eq_of_lt hk]
  have hk' := h _ (mod23_lt (k + 22 * n))
  rwa [hpos] at hk'

theorem getLsbD_rotr23_sub (v : Word23) {n j : Nat} (hn : n < 23) (hj : j < 23) :
    (rotr23 v n).getLsbD ((j + 23 - n) % 23) = v.getLsbD j := by
  rw [Nat.add_sub_assoc (Nat.le_of_lt hn), ← Nat.add_mod_mod]
  exact getLsbD_rotl23_add v (mod23_lt _) hj

theorem rotl23_rotl23 (v : Word23) {m n : Nat} (hm : m < 23) (hn : n < 23) :
    rotl23 (rotl23 v m) n = rotl23 v ((m + n) % 23) := by
  refine eq_of_getLsbD_add_mod (m + n) fun j hj => ?_
  have hleft := getLsbD_rotl23_add (rotl23 v m) hn (mod23_lt (j + m))
  have hright := getLsbD_rotl23_add v (mod23_lt (m + n)) hj
  rw [Nat.mod_add_mod, Nat.add_assoc] at hleft
  rw [Nat.add_mod_mod] at hright
  rw [hleft, hright, getLsbD_rotl23_add v hm hj]

/-- A rotation by the rest of the 23 positions closes the circle. -/
theorem rotl23_rotl23_of_add {m n : Nat} (v : Word23) (hm : m < 23) (hn : n < 23) (h : (m + n) % 23 = 0) :
    rotl23 (rotl23 v m) n = v := by
  rw [rotl23_rotl23 v hm hn, h, rotl23_zero]

theorem rotr23_rotl23 (v : Word23) {n : Nat} (hn : n < 23) : rotr23 (rotl23 v n) n = v :=
  rotl23_rotl23_of_add v hn (mod23_lt _) (by rw [Nat.add_mod_mod, Nat.add_sub_cancel' (Nat.le_of_lt hn)])

theorem rotl23_rotr23 (v : Word23) {n : Nat} (hn : n < 23) : rotl23 (rotr23 v n) n = v :=
  rotl23_rotl23_of_add v (mod23_lt _) hn (by rw [Nat.mod_add_mod, Nat.sub_add_cancel (Nat.le_of_lt hn)])

theorem rotl23_xor (a b : Word23) {n : Nat} (hn : n < 23) : rotl23 (a ^^^ b) n = rotl23 a n ^^^ rotl23 b n :=
  eq_of_getLsbD_add_mod n fun j hj => by
    rw [BitVec.getLsbD_xor, getLsbD_rotl23_add _ hn hj, getLsbD_rotl23_add _ hn hj, getLsbD_rotl23_add _ hn hj,
      BitVec.getLsbD_xor]

theorem rotl23_linear {n : Nat} (hn : n < 23) : XorLinear (rotl23 · n) := fun a b => rotl23_xor a b hn

theorem rotl23_zero_word {n : Nat} (hn : n < 23) : rotl23 0#23 n = 0#23 := (rotl23_linear hn).map_zero

theorem rotr23_xor (a b : Word23) (n : Nat) : rotr23 (a ^^^ b) n = rotr23 a n ^^^ rotr23 b n := rotl23_xor a b (mod23_lt _)

theorem range_map_add_mod (n : Nat) : (List.range 23).map (fun j => (j + n) % 23) = (List.range 23).rotate n :=
  List.ext_getElem (by rw [List.length_map, List.length_rotate]) fun k _ _ => by
    rw [List.getElem_map, List.getElem_rotate, List.getElem_range, List.getElem_range, List.length_range]

theorem popcount_rotl23 (v : Word23) {n : Nat} (hn : n < 23) : popcount (rotl23 v n) = popcount v := by
  have hperm : ((List.range 23).map fun j => (j + n) % 23).Perm (List.range 23) :=
    (range_map_add_mod n).symm ▸ List.rotate_perm _ n
  have hbits : ∀ j ∈ List.range 23, (rotl23 v n).getLsbD ((j + n) % 23) = true ↔ v.getLsbD j = true := fun j hj => by
    rw [getLsbD_rotl23_add v hn (List.mem_range.1 hj)]
  rw [popcount, ← hperm.countP_eq, List.countP_map]
  exact List.countP_congr hbits

theorem xor_cancel_left {n : Nat} (c a : BitVec n) : c ^^^ (c ^^^ a) = a := by
  rw [← BitVec.xor_assoc, BitVec.xor_self, BitVec.zero_xor]

theorem isCodeword_iff_div12 (c : Word23) : IsCodeword c ↔ div12 c = 0#11 :=
  ⟨fun ⟨d, h⟩ => h ▸ div12_codeword23 d, fun h => ⟨_, (div12_eq_zero_iff c).1 h⟩⟩

theorem codeword23_linear : XorLinear codeword23 := fun a b => by
  rw [codeword23, checkOf_linear]
  exact BitVec.xor_append.symm

theorem IsCodeword.xor {c c' : Word23} (h : IsCodeword c) (h' : IsCodeword c') : IsCodeword (c ^^^ c') := by
  rw [isCodeword_iff_div12] at *
  rw [div12_linear, h, h', BitVec.xor_self]

theorem divSteps_divStep (n : Nat) (v : Word23) : divSteps n (divStep v) = divStep (divSteps n v) := by
  induction n generalizing v with
  | zero => rfl
  | succ n ih => exact ih (divStep v)

/-- A division iteration takes codewords to codewords: it divides the remainder by x (40_encoder.md R61). -/
theorem IsCodeword.divStep {c : Word23} (h : IsCodeword c) : IsCodeword (divStep c) := by
  rw [isCodeword_iff_div12] at *
  have hzero : divSteps 12 c = 0#23 := by
    rw [← (twelveIterationsLeaveElevenBits c).2.2, h]
    rfl
  rw [div12, divIter, divSteps_divStep, hzero]
  rfl

/-- When bit 0 is 0, a right rotation by one is a shift, and so is a division iteration. -/
theorem rotl23_22_of_even {v : Word23} (h : v.getLsbD 0 = false) : rotl23 v 22 = divStep v := by
  have hlow : v <<< 22 = 0#23 := BitVec.eq_of_getLsbD_eq fun j hj => by
    rw [BitVec.getLsbD_shiftLeft, BitVec.getLsbD_zero]
    obtain rfl | hlt : j = 22 ∨ j < 22 := by omega
    · rw [Nat.sub_self, h, Bool.and_false]
    · rw [decide_eq_true hlt, Bool.not_true, Bool.and_false, Bool.false_and]
  rw [rotl23, hlow, BitVec.zero_or, divStep, h]
  rfl

/-- The code is closed under the right rotation by one: a 1 in bit 0 can be cleared by adding G. -/
theorem IsCodeword.rotl23_22 {c : Word23} (h : IsCodeword c) : IsCodeword (Machine.rotl23 c 22) := by
  cases hbit : c.getLsbD 0 with
  | false =>
    rw [rotl23_22_of_even hbit]
    exact h.divStep
  | true =>
    have hgen : IsCodeword 0xAE3#23 := (isCodeword_iff_div12 _).2 (by decide)
    have hgenRotated : IsCodeword (Machine.rotl23 0xAE3#23 22) := (isCodeword_iff_div12 _).2 (by decide)
    have heven : (0xAE3#23 ^^^ c).getLsbD 0 = false := by
      rw [BitVec.getLsbD_xor, hbit]
      rfl
    rw [← xor_cancel_left 0xAE3#23 c, rotl23_xor _ _ (by decide), rotl23_22_of_even heven]
    exact hgenRotated.xor (hgen.xor h).divStep

/-- The code is cyclic (43_decoder.md R77): every rotation is a number of right rotations by one. -/
theorem IsCodeword.rotl23 {c : Word23} (h : IsCodeword c) {n : Nat} (hn : n < 23) : IsCodeword (rotl23 c n) := by
  have hright (k : Nat) : IsCodeword (Machine.rotl23 c (22 * k % 23)) := by
    induction k with
    | zero => rwa [Nat.mul_zero, Nat.zero_mod, rotl23_zero]
    | succ k ih =>
      have hsum : (22 * k % 23 + 22) % 23 = 22 * (k + 1) % 23 := Nat.mod_add_mod _ _ _
      rw [← hsum, ← rotl23_rotl23 c (Nat.mod_lt _ (by decide)) (by decide)]
      exact ih.rotl23_22
  have hback : ∀ n : Fin 23, 22 * (23 - n.val) % 23 = n.val := by decide
  have hn' : 22 * (23 - n) % 23 = n := hback ⟨n, hn⟩
  exact hn' ▸ hright (23 - n)

/-- Settles O16: the rotations permute the bit positions, and the code is cyclic. -/
theorem rotationLaws : Obligations.RotationLaws := fun v _ hn =>
  ⟨rfl, rfl, fun _ hj => getLsbD_rotl23_add v hn hj, fun _ hj => getLsbD_rotr23_sub v hn hj, rotr23_rotl23 v hn,
    rotl23_zero v, popcount_rotl23 v hn, fun h => h.rotl23 hn⟩

end Sys2Proof.Machine
end

section
/-! How many words have given weights: binomial coefficients, as a word is the set of its 1 bits (42_weight.md R74). -/

namespace Sys2Proof.Machine

/-- The positions of the 1 bits of a word. -/
def onePositions {n : Nat} (v : BitVec n) : Finset Nat := (Finset.range n).filter fun j => v.getLsbD j = true

theorem mem_onePositions {n j : Nat} {v : BitVec n} : j ∈ onePositions v ↔ v.getLsbD j = true :=
  Finset.mem_filter.trans (and_iff_right_of_imp fun h => Finset.mem_range.2 (BitVec.lt_of_getLsbD h))

theorem card_onePositions {n : Nat} (v : BitVec n) : (onePositions v).card = popcount v :=
  List.countP_eq_length_filter.symm.trans (List.countP_congr fun _ _ => decide_eq_true_iff)

theorem onePositions_injective (n : Nat) : Function.Injective (onePositions (n := n)) := fun v w h =>
  BitVec.eq_of_getLsbD_eq fun j _ => Bool.eq_iff_iff.2 (by rw [← mem_onePositions, h, mem_onePositions])

theorem onePositions_ofFnLE {n : Nat} {s : Finset Nat} (h : s ⊆ Finset.range n) :
    onePositions (BitVec.ofFnLE fun j : Fin n => decide (j.val ∈ s)) = s := by
  ext j
  rw [mem_onePositions, BitVec.getLsbD_ofFnLE]
  have hlt : j ∈ s → j < n := fun hj => Finset.mem_range.1 (h hj)
  by_cases hj : j < n
  · rw [dif_pos hj]
    exact decide_eq_true_iff
  · rw [dif_neg hj]
    exact iff_of_false Bool.false_ne_true (mt hlt hj)

/-- There are n choose k words of n bits with k 1 bits. -/
theorem card_filter_popcount_eq (n k : Nat) :
    (Finset.univ.filter fun v : BitVec n => popcount v = k).card = n.choose k := by
  have himage : (Finset.univ.filter fun v : BitVec n => popcount v = k).image onePositions =
      (Finset.range n).powersetCard k := by
    ext s
    simp only [Finset.mem_image, Finset.mem_filter, Finset.mem_univ, true_and, Finset.mem_powersetCard]
    constructor
    · rintro ⟨v, hv, rfl⟩
      exact ⟨Finset.filter_subset _ _, (card_onePositions v).trans hv⟩
    · rintro ⟨hsub, hcard⟩
      exact ⟨_, by rw [← card_onePositions, onePositions_ofFnLE hsub, hcard], onePositions_ofFnLE hsub⟩
  rw [← Finset.card_image_of_injective _ (onePositions_injective n), himage, Finset.card_powersetCard,
    Finset.card_range]

theorem ncard_popcount_mem (n : Nat) (K : Finset Nat) :
    {v : BitVec n | popcount v ∈ K}.ncard = ∑ k ∈ K, n.choose k := by
  rw [Set.ncard_eq_toFinset_card', Set.toFinset_ofPred,
    Finset.card_eq_sum_card_fiberwise (f := popcount) (t := K) fun v hv => by simpa using hv]
  refine Finset.sum_congr rfl fun k hk => ?_
  rw [← card_filter_popcount_eq, Finset.filter_filter]
  congr 1
  ext v
  simp only [Finset.mem_filter, Finset.mem_univ, true_and, and_iff_right_iff_imp]
  rintro rfl
  exact hk

theorem ncard_univ_bitVec (n : Nat) : (Set.univ : Set (BitVec n)).ncard = 2 ^ n := by
  rw [Set.ncard_univ, Nat.card_eq_fintype_card, ← FinEnum.card_eq_fintypeCard, FinEnum.card_bitVec]

end Sys2Proof.Machine
end

section
/-! The Hamming distance, and nearest codewords under rotation. Two codewords within distance 6 are equal, and the words of
weight at most 3 are as many as the remainders, so every word has exactly one nearest codeword (43_decoder.md R87). -/

namespace Sys2Proof.Machine

theorem popcount_xor_le {n : Nat} (a b : BitVec n) : popcount (a ^^^ b) ≤ popcount a + popcount b := by
  have h := popcount_xor_add a b
  omega

theorem distance_eq {n : Nat} (a b : BitVec n) : distance a b = popcount (a ^^^ b) := rfl

theorem distance_comm {n : Nat} (a b : BitVec n) : distance a b = distance b a := by
  rw [distance_eq, distance_eq, BitVec.xor_comm]

theorem distance_eq_zero_iff {n : Nat} {a b : BitVec n} : distance a b = 0 ↔ a = b :=
  popcount_eq_zero_iff.trans BitVec.xor_eq_zero_iff

theorem xor_xor_xor_cancel {n : Nat} (c a b : BitVec n) : c ^^^ a ^^^ (c ^^^ b) = a ^^^ b := by
  calc c ^^^ a ^^^ (c ^^^ b) = c ^^^ c ^^^ (a ^^^ b) := by ac_rfl
    _ = a ^^^ b := by rw [BitVec.xor_self, BitVec.zero_xor]

theorem distance_triangle {n : Nat} (a b c : BitVec n) : distance a c ≤ distance a b + distance b c := by
  have h : a ^^^ c = a ^^^ b ^^^ (b ^^^ c) := by rw [BitVec.xor_comm a b, xor_xor_xor_cancel]
  rw [distance_eq, h]
  exact popcount_xor_le _ _

theorem distance_rotl23 (a b : Word23) {n : Nat} (hn : n < 23) : distance (rotl23 a n) (rotl23 b n) = distance a b :=
  (congrArg popcount (rotl23_xor a b hn).symm).trans (popcount_rotl23 _ hn)

theorem IsNearest.rotl23 {r c : Word23} (h : IsNearest r c) {n : Nat} (hn : n < 23) :
    IsNearest (rotl23 r n) (rotl23 c n) :=
  ⟨h.1.rotl23 hn, (distance_rotl23 c r hn).trans_le h.2⟩

theorem IsNearest.rotr23 {r c : Word23} (h : IsNearest r c) (n : Nat) : IsNearest (rotr23 r n) (rotr23 c n) :=
  h.rotl23 (mod23_lt _)

/-- The least distance of the code is 7 (40_encoder.md R65). -/
theorem IsCodeword.eq_of_distance_le {c c' : Word23} (h : IsCodeword c) (h' : IsCodeword c') (hle : distance c c' ≤ 6) :
    c = c' := by
  obtain ⟨d, hd⟩ := h.xor h'
  have hmem := popcount_encResult_mem d
  rw [encResult, popcount_zext24, ← hd, ← distance_eq] at hmem
  simp only [List.mem_cons, List.not_mem_nil, or_false] at hmem
  exact distance_eq_zero_iff.1 (by omega)

theorem IsNearest.unique {r c c' : Word23} (h : IsNearest r c) (h' : IsNearest r c') : c = c' := by
  refine h.1.eq_of_distance_le h'.1 ?_
  have htriangle := distance_triangle c r c'
  have hle := h.2
  have hle' := h'.2
  rw [distance_comm] at hle'
  omega

/-- Different error patterns of weight at most 3 have different remainders. -/
theorem eq_of_div12_eq {a b : Word23} (ha : popcount a ≤ 3) (hb : popcount b ≤ 3) (h : div12 a = div12 b) : a = b := by
  have hcodeword : IsCodeword (a ^^^ b) := (isCodeword_iff_div12 _).2 (by rw [div12_linear, h, BitVec.xor_self])
  have hle := popcount_xor_le a b
  refine BitVec.xor_eq_zero_iff.1 (hcodeword.eq_of_distance_le ⟨0#12, codeword23_linear.map_zero.symm⟩ ?_)
  rw [distance_eq, BitVec.xor_zero]
  omega

/-- The code is perfect: each remainder is that of an error pattern of weight at most 3, as there are
1 + 23 + 253 + 1771 = 2^11 of both. -/
theorem exists_popcount_le_three_div12 (s : Check) : ∃ e : Word23, popcount e ≤ 3 ∧ div12 e = s := by
  have hmem {e : Word23} : popcount e ∈ Finset.range 4 ↔ popcount e ≤ 3 := Finset.mem_range.trans Nat.lt_succ_iff
  have hinj : Set.InjOn div12 {e | popcount e ∈ Finset.range 4} := fun _ ha _ hb => eq_of_div12_eq (hmem.1 ha) (hmem.1 hb)
  have hball : {e : Word23 | popcount e ∈ Finset.range 4}.ncard = 2 ^ 11 := (ncard_popcount_mem 23 _).trans (by decide)
  have hsurj : div12 '' {e | popcount e ∈ Finset.range 4} = Set.univ := by
    rw [Set.eq_univ_iff_ncard, hinj.ncard_image, hball, ← Set.ncard_univ, ncard_univ_bitVec]
  obtain ⟨e, he, rfl⟩ := hsurj.symm ▸ Set.mem_univ s
  exact ⟨e, hmem.1 he, rfl⟩

theorem exists_isNearest (r : Word23) : ∃ c, IsNearest r c := by
  obtain ⟨e, hle, hdiv⟩ := exists_popcount_le_three_div12 (div12 r)
  refine ⟨r ^^^ e, (isCodeword_iff_div12 _).2 ?_, ?_⟩
  · rw [div12_linear, hdiv, BitVec.xor_self]
  · rw [distance_eq, BitVec.xor_comm r, BitVec.xor_assoc, BitVec.xor_self, BitVec.xor_zero]
    exact hle

end Sys2Proof.Machine
end

section
/-! The search as the first accepting probe, and what every accepting probe reconstructs: the nearest codeword
(43_decoder.md R80, R86, R87, R89). -/

namespace Sys2Proof.Machine

/-- Every number from 1 to 552 is that of a probe (43_decoder.md R80). -/
theorem exists_probe_number {n : Nat} (hpos : 1 ≤ n) (hle : n ≤ 552) : ∃ p : Probe, p.number = n := by
  obtain ⟨k, rfl⟩ := Nat.exists_eq_add_of_le' hpos
  have hrot : k / 24 < 23 := Nat.div_lt_of_lt_mul (Nat.lt_of_succ_le hle)
  have hsum := Nat.div_add_mod k 24
  have htrial := Nat.mod_lt k (by decide : 24 > 0)
  cases hmod : k % 24 with
  | zero =>
    rw [hmod] at hsum
    exact ⟨⟨⟨k / 24, hrot⟩, none⟩, congrArg Nat.succ hsum⟩
  | succ t =>
    rw [hmod] at hsum htrial
    exact ⟨⟨⟨k / 24, hrot⟩, some ⟨t, Nat.lt_of_succ_lt_succ htrial⟩⟩, congrArg Nat.succ hsum⟩

/-- The probes stand in the order at their numbers, counting from 1 (43_decoder.md R80). -/
theorem probeOrder_map_number : probeOrder.map Probe.number = List.range' 1 552 := by
  have hsorted : (probeOrder.map Probe.number).Pairwise (· < ·) := List.pairwise_map.2 probeOrder_pairwise_number
  refine List.Perm.eq_of_pairwise (le := (· < ·)) (fun _ _ _ _ h h' => absurd h h'.asymm) hsorted
    (List.pairwise_lt_range' 1) ((List.perm_ext_iff_of_nodup ?_ (List.nodup_range' 1)).2 fun n => ?_)
  · exact hsorted.imp Nat.ne_of_lt
  · rw [List.mem_map, List.mem_range'_1]
    constructor
    · rintro ⟨p, -, rfl⟩
      exact ⟨p.number_pos, Nat.lt_succ_of_le p.number_le⟩
    · rintro ⟨hpos, hlt⟩
      obtain ⟨p, hp⟩ := exists_probe_number hpos (Nat.le_of_lt_succ hlt)
      exact ⟨p, mem_probeOrder p, hp⟩

theorem probeOrder_length : probeOrder.length = 552 := by
  rw [← List.length_map (as := probeOrder) Probe.number, probeOrder_map_number, List.length_range']

theorem probeOrder_getElem? (p : Probe) : probeOrder[p.number - 1]? = some p := by
  have hpos := p.number_pos
  have hle := p.number_le
  have hnumber : (probeOrder[p.number - 1]?).map Probe.number = some p.number := by
    rw [← List.getElem?_map, probeOrder_map_number, List.getElem?_range' (by omega)]
    congr 1
    omega
  obtain ⟨q, hq, hqp⟩ := Option.map_eq_some_iff.1 hnumber
  rw [hq, Probe.number_injective hqp]

/-- A search ends at a first accepting probe, or every probe rejects (43_decoder.md R80, R83). -/
theorem exists_first_accepts_or_reject (r : Word23) :
    (∃ p : Probe, accepts r p = true ∧ ∀ q : Probe, q.number < p.number → accepts r q = false) ∨
      ∀ q : Probe, accepts r q = false := by
  by_cases h : ∃ p : Probe, accepts r p = true
  · obtain ⟨p, hp, hmin⟩ := (measure Probe.number).wf.has_min {p | accepts r p = true} h
    exact .inl ⟨p, hp, fun q hq => Bool.eq_false_of_not_eq_true fun ha => hmin q ha hq⟩
  · exact .inr fun q => Bool.eq_false_of_not_eq_true fun ha => h ⟨q, ha⟩

/-- The search ends at the first probe that accepts (43_decoder.md R80). -/
theorem search_probe_eq_some_iff (r : Word23) (p : Probe) :
    (search r).probe = some p ↔ accepts r p = true ∧ ∀ q : Probe, q.number < p.number → accepts r q = false := by
  refine ⟨fun h => ?_, fun ⟨hp, hfirst⟩ => by rw [search_of_first hp hfirst]⟩
  rcases exists_first_accepts_or_reject r with ⟨q, hq, hfirst⟩ | hreject
  · rw [search_of_first hq hfirst] at h
    exact Option.some.inj h ▸ ⟨hq, hfirst⟩
  · rw [search_of_all_reject hreject] at h
    exact absurd h (Option.some_ne_none p).symm

/-- Settles O29: the numbers of the probes in their order are 1 to 552. -/
theorem firstAcceptingProbeEndsTheSearch : Obligations.FirstAcceptingProbeEndsTheSearch :=
  ⟨probeOrder_length, fun i => ⟨Probe.number_none i, Probe.number_some i⟩, probeOrder_getElem?,
    search_probe_eq_some_iff⟩

theorem flipTrial_none (w : Word23) : flipTrial w none = w := rfl

theorem flipTrial_some (w : Word23) (t : Fin 23) : flipTrial w (some t) = w ^^^ BitVec.twoPow 23 t := rfl

theorem threshold_none : threshold none = 3 := rfl

theorem threshold_some (t : Fin 23) : threshold (some t) = 2 := rfl

theorem probedWord_eq (r : Word23) (p : Probe) : probedWord r p = flipTrial (rotl23 r p.rot.val) p.trial := rfl

theorem flipTrial_xor (a b : Word23) (t : Trial) : flipTrial (a ^^^ b) t = a ^^^ flipTrial b t := by
  cases t with
  | none => rfl
  | some t => exact BitVec.xor_assoc a b _

/-- A probe with a trial flip leaves room for one flip less in the window (43_decoder.md R79). -/
theorem distance_flipTrial_add_threshold (w : Word23) (t : Trial) : distance (flipTrial w t) w + threshold t ≤ 3 := by
  cases t with
  | none => rw [flipTrial_none, distance_eq_zero_iff.2 rfl, threshold_none]
  | some t =>
    rw [flipTrial_some, distance_comm, distance_eq, xor_cancel_left, popcount_twoPow t.isLt, threshold_some]

theorem setWidth_syndrome (w : Word23) : (syndrome w).setWidth 23 = (div12 w).append 0#12 := by
  rw [syndrome_eq_zext24, zext24]
  exact BitVec.setWidth_setWidth_of_le _ (by decide) |>.trans (BitVec.setWidth_eq _)

theorem popcount_setWidth_syndrome (w : Word23) : popcount ((syndrome w).setWidth 23) = weight (syndrome w) := by
  rw [syndrome_eq_zext24, weight_eq_popcount, popcount_zext24, ← syndrome_eq_zext24, setWidth_syndrome]
  rfl

/-- The syndrome completes a word to a codeword (43_decoder.md R86). -/
theorem isCodeword_xor_syndrome (w : Word23) : IsCodeword (w ^^^ (syndrome w).setWidth 23) := by
  have hcheck : div12 ((syndrome w).setWidth 23) = div12 w := by
    rw [setWidth_syndrome]
    exact div12_check_append_zero _
  rw [isCodeword_iff_div12, div12_linear, hcheck, BitVec.xor_self]

/-- When the syndrome of the probed word is light enough, the trial flip and the syndrome together flip at most three
bits, to a codeword (43_decoder.md R86). -/
theorem isNearest_of_weight_le {w : Word23} {t : Trial} (h : weight (syndrome (flipTrial w t)) ≤ threshold t) :
    IsNearest w (flipTrial w t ^^^ (syndrome (flipTrial w t)).setWidth 23) := by
  refine ⟨isCodeword_xor_syndrome _, ?_⟩
  have hbudget := distance_flipTrial_add_threshold w t
  have hsyndrome : distance (flipTrial w t ^^^ (syndrome (flipTrial w t)).setWidth 23) (flipTrial w t) =
      weight (syndrome (flipTrial w t)) := by
    rw [distance_comm, distance_eq, xor_cancel_left, popcount_setWidth_syndrome]
  have htriangle := distance_triangle (flipTrial w t ^^^ (syndrome (flipTrial w t)).setWidth 23) (flipTrial w t) w
  omega

/-- An accepting probe reconstructs a nearest codeword (43_decoder.md R86, R87). -/
theorem isNearest_reconstruct {r : Word23} {p : Probe} (h : accepts r p = true) :
    IsNearest r (reconstruct (probedWord r p) (probeSyndrome r p) p.rot.val) := by
  have hnear := (isNearest_of_weight_le (of_decide_eq_true h)).rotr23 p.rot.val
  rwa [rotr23_rotl23 r p.rot.isLt] at hnear

/-- So does an accepting probe of the right rotations (43_decoder.md R98). -/
theorem isNearest_reconstruct_right {r : Word23} {i : Fin 23} {t : Trial}
    (h : weight (syndrome (flipTrial (rotr23 r i.val) t)) ≤ threshold t) :
    IsNearest r (rotl23 (flipTrial (rotr23 r i.val) t ^^^
      (syndrome (flipTrial (rotr23 r i.val) t)).setWidth 23) i.val) := by
  have hnear := (isNearest_of_weight_le h).rotl23 i.isLt
  rwa [rotl23_rotr23 r i.isLt] at hnear

/-- Settles O30: the syndrome completes the probed word to a codeword. -/
theorem acceptedProbeGivesANearCodeword : Obligations.AcceptedProbeGivesANearCodeword := fun _ _ h =>
  isNearest_reconstruct h

/-- Settles O31: the code is perfect, and the least distance makes the nearest codeword unique. -/
theorem everyWordHasExactlyOneNearestCodeword : Obligations.EveryWordHasExactlyOneNearestCodeword := by
  refine ⟨fun r => ?_, fun _ _ h => isNearest_reconstruct h⟩
  obtain ⟨c, hc⟩ := exists_isNearest r
  exact ⟨c, hc, fun _ hc' => hc'.unique hc⟩

theorem probedWord_xor (c e : Word23) (p : Probe) :
    probedWord (c ^^^ e) p = rotl23 c p.rot.val ^^^ probedWord e p := by
  rw [probedWord_eq, rotl23_xor _ _ p.rot.isLt, flipTrial_xor, probedWord_eq]

theorem probeSyndrome_codeword_xor {c : Word23} (hc : IsCodeword c) (e : Word23) (p : Probe) :
    probeSyndrome (c ^^^ e) p = probeSyndrome e p := by
  rw [probeSyndrome, probedWord_xor]
  exact syndromeIsLinear.2 _ _ (hc.rotl23 p.rot.isLt)

theorem accepts_codeword_xor {c : Word23} (hc : IsCodeword c) (e : Word23) : accepts (c ^^^ e) = accepts e :=
  funext fun p => by rw [accepts, probeSyndrome_codeword_xor hc, accepts]

theorem reconstruct_xor (c w : Word23) (s : Word24) (n : Nat) :
    reconstruct (c ^^^ w) s n = rotr23 c n ^^^ reconstruct w s n :=
  (congrArg (rotr23 · n) (BitVec.xor_assoc c w _)).trans (rotr23_xor c _ n)

/-- A codeword added to the received word is added to the codeword found (43_decoder.md R89). -/
theorem search_codeword_xor {c : Word23} (hc : IsCodeword c) (e : Word23) :
    search (c ^^^ e) = ⟨c ^^^ (search e).codeword, (search e).probe⟩ := by
  have hsame := congrFun (accepts_codeword_xor hc e)
  rcases exists_first_accepts_or_reject e with ⟨p, hp, hfirst⟩ | hreject
  · rw [search_of_first hp hfirst, search_of_first ((hsame p).trans hp) fun q hq => (hsame q).trans (hfirst q hq),
      probeSyndrome_codeword_xor hc, probedWord_xor, reconstruct_xor, rotr23_rotl23 c p.rot.isLt]
  · rw [search_of_all_reject hreject, search_of_all_reject fun q => (hsame q).trans (hreject q)]

theorem search_probe_codeword_xor {c : Word23} (hc : IsCodeword c) (e : Word23) :
    (search (c ^^^ e)).probe = (search e).probe := by
  rw [search_codeword_xor hc]

/-- Settles O33: a codeword adds 0 to every syndrome. -/
theorem searchDependsOnlyOnTheError : Obligations.SearchDependsOnlyOnTheError := fun _ e hc =>
  ⟨probeSyndrome_codeword_xor hc e, search_probe_codeword_xor hc e, by rw [search_codeword_xor hc]⟩

end Sys2Proof.Machine
end

section
/-! How soon a probe accepts. A pattern is trapped when a rotation of at most 13 brings it, but for the trial bit, into the
window of bits 22:12, where a word is its own syndrome (41_syndrome.md R71; 43_decoder.md R88). -/

namespace Sys2Proof.Machine

/-- The bits of a word below the window, bits 11:0 (41_syndrome.md R71). -/
def belowWindow (v : Word23) : Data := v.extractLsb' 0 12

theorem belowWindow_linear : XorLinear belowWindow := fun _ _ => BitVec.extractLsb'_xor

theorem getLsbD_belowWindow (v : Word23) {j : Nat} (hj : j < 12) : (belowWindow v).getLsbD j = v.getLsbD j := by
  refine (BitVec.getLsbD_extractLsb' ..).trans ?_
  rw [decide_eq_true hj, Bool.true_and, Nat.zero_add]

/-- All 1 bits of the word stand in the window, bits 22:12 (41_syndrome.md R71). -/
def InWindow (v : Word23) : Prop := belowWindow v = 0#12

theorem inWindow_iff (v : Word23) : InWindow v ↔ belowWindow v = 0#12 := Iff.rfl

theorem InWindow.xor {u v : Word23} (hu : InWindow u) (hv : InWindow v) : InWindow (u ^^^ v) := by
  rw [inWindow_iff] at *
  rw [belowWindow_linear, hu, hv, BitVec.xor_zero]

theorem inWindow_twoPow {k : Nat} (h : 12 ≤ k) : InWindow (BitVec.twoPow 23 k) :=
  BitVec.eq_of_getLsbD_eq fun j hj => by
    have hne : ¬ k = j := by omega
    rw [getLsbD_belowWindow _ hj, BitVec.getLsbD_twoPow, decide_eq_false hne, Bool.and_false, BitVec.getLsbD_zero]

theorem accepts_of_inWindow {e : Word23} {p : Probe} (hwindow : InWindow (probedWord e p))
    (hle : popcount (probedWord e p) ≤ threshold p.trial) : accepts e p = true := by
  rw [accepts, probeSyndrome, syndrome_of_window hwindow, weight_eq_popcount, popcount_zext24]
  exact decide_eq_true hle

theorem getLsbD_twoPow_self {n j : Nat} (hj : j < n) : (BitVec.twoPow n j).getLsbD j = true := by
  rw [BitVec.getLsbD_twoPow, decide_eq_true hj, decide_eq_true rfl, Bool.true_and]

theorem rotl23_twoPow {n j : Nat} (hn : n < 23) (hj : j < 23) :
    rotl23 (BitVec.twoPow 23 j) n = BitVec.twoPow 23 ((j + n) % 23) := by
  have hbit : (rotl23 (BitVec.twoPow 23 j) n).getLsbD ((j + n) % 23) = true := by
    rw [getLsbD_rotl23_add _ hn hj, getLsbD_twoPow_self hj]
  obtain ⟨k, hk, heq⟩ := eq_twoPow_of_popcount_eq_one ((popcount_rotl23 _ hn).trans (popcount_twoPow hj))
  rw [heq, BitVec.getLsbD_twoPow] at hbit
  have hkj : k = (j + n) % 23 := of_decide_eq_true (Bool.and_eq_true_iff.1 hbit).2
  rw [heq, hkj]

/-- A pattern of which a rotation brings all but bit c into the window is accepted with bit c as the trial bit. -/
theorem accepts_of_inWindow_rotl23 {u : Word23} {n c : Nat} (hn : n < 23) (hc : c < 23) (hle : popcount u ≤ 2)
    (hwindow : InWindow (rotl23 u n)) :
    accepts (u ^^^ BitVec.twoPow 23 c) ⟨⟨n, hn⟩, some ⟨(c + n) % 23, Nat.mod_lt _ (by decide)⟩⟩ = true := by
  have hprobed : probedWord (u ^^^ BitVec.twoPow 23 c) ⟨⟨n, hn⟩, some ⟨(c + n) % 23, Nat.mod_lt _ (by decide)⟩⟩ =
      rotl23 u n := by
    rw [probedWord_eq, flipTrial_some, rotl23_xor _ _ hn, rotl23_twoPow hn hc]
    exact xor_twoPow_cancel _ _
  refine accepts_of_inWindow (hprobed.symm ▸ hwindow) ?_
  rw [hprobed, popcount_rotl23 u hn]
  exact hle

/-- Each rotation has 24 numbers (43_decoder.md R80). -/
theorem Probe.number_bounds (p : Probe) : 24 * p.rot.val < p.number ∧ p.number ≤ 24 * p.rot.val + 24 := by
  rcases p with ⟨i, _ | t⟩
  · rw [Probe.number_none]
    exact ⟨Nat.lt_succ_self _, Nat.add_le_add_left (by decide) _⟩
  · rw [Probe.number_some]
    dsimp only
    omega

/-- Some probe up to number 315, which is (13, 1), accepts (43_decoder.md R88). -/
def AcceptedBy315 (e : Word23) : Prop := ∃ p : Probe, accepts e p = true ∧ p.number ≤ 315

/-- Rotations up to 12 come before probe 315, with every trial bit. -/
theorem acceptedBy315_of_inWindow {u : Word23} {n c : Nat} (hn : n ≤ 12) (hc : c < 23) (hle : popcount u ≤ 2)
    (hwindow : InWindow (rotl23 u n)) : AcceptedBy315 (u ^^^ BitVec.twoPow 23 c) := by
  refine ⟨_, accepts_of_inWindow_rotl23 (Nat.lt_of_le_of_lt hn (by decide)) hc hle hwindow, ?_⟩
  calc _ ≤ 24 * n + 24 := (Probe.number_bounds _).2
    _ ≤ 24 * 12 + 24 := Nat.add_le_add_right (Nat.mul_le_mul_left 24 hn) 24
    _ ≤ 315 := by decide

/-- A bit at a or above, by at most 10, is brought into the window by the rotation that brings bit a to bit 12, if bit a is
below the window. -/
theorem inWindow_rotl23_twoPow {a j : Nat} (hj : j < 23) (hlow : a ≤ j) (hhigh : j ≤ a + 10) :
    InWindow (rotl23 (BitVec.twoPow 23 j) (12 - a)) := by
  have hlt : j + (12 - a) < 23 := by omega
  rw [rotl23_twoPow (Nat.lt_of_le_of_lt (Nat.le_add_left _ j) hlt) hj, Nat.mod_eq_of_lt hlt]
  exact inWindow_twoPow (by omega)

theorem popcount_twoPow_xor_twoPow_le {i j : Nat} (hi : i < 23) (hj : j < 23) :
    popcount (BitVec.twoPow 23 i ^^^ BitVec.twoPow 23 j) ≤ 2 := by
  have hle := popcount_xor_le (BitVec.twoPow 23 i) (BitVec.twoPow 23 j)
  rwa [popcount_twoPow hi, popcount_twoPow hj] at hle

/-- Two bits within 10 of each other are trapped together, and a third is the trial bit. -/
theorem acceptedBy315_of_close {a b c : Nat} (hab : a ≤ b) (hclose : b ≤ a + 10) (hb : b < 23) (hc : c < 23) :
    AcceptedBy315 (BitVec.twoPow 23 a ^^^ BitVec.twoPow 23 b ^^^ BitVec.twoPow 23 c) := by
  have ha := Nat.lt_of_le_of_lt hab hb
  refine acceptedBy315_of_inWindow (Nat.sub_le 12 a) hc (popcount_twoPow_xor_twoPow_le ha hb) ?_
  rw [rotl23_xor _ _ (by omega)]
  exact (inWindow_rotl23_twoPow ha le_rfl (Nat.le_add_right a 10)).xor (inWindow_rotl23_twoPow hb hab hclose)

/-- Of three bits in order two neighbours are within 10 of each other, but for bits 0, 11 and 22, which probe (13, 1)
traps. -/
theorem acceptedBy315_of_sorted {a b c : Nat} (hab : a ≤ b) (hbc : b ≤ c) (hc : c < 23) :
    AcceptedBy315 (BitVec.twoPow 23 a ^^^ BitVec.twoPow 23 b ^^^ BitVec.twoPow 23 c) := by
  by_cases hfirst : b ≤ a + 10
  · exact acceptedBy315_of_close hab hfirst (by omega) hc
  by_cases hsecond : c ≤ b + 10
  · rw [BitVec.xor_assoc, BitVec.xor_comm]
    exact acceptedBy315_of_close hbc hsecond hc (by omega)
  · obtain ⟨rfl, rfl, rfl⟩ : a = 0 ∧ b = 11 ∧ c = 22 := by omega
    have hwindow : InWindow (rotl23 (BitVec.twoPow 23 0 ^^^ BitVec.twoPow 23 22) 13) := by
      rw [rotl23_xor _ _ (by decide), rotl23_twoPow (by decide) (by decide), rotl23_twoPow (by decide) (by decide)]
      exact (inWindow_twoPow (by decide)).xor (inWindow_twoPow (by decide))
    rw [BitVec.xor_assoc, BitVec.xor_comm (BitVec.twoPow 23 11), ← BitVec.xor_assoc]
    exact ⟨_, accepts_of_inWindow_rotl23 (by decide) (by decide) (popcount_twoPow_xor_twoPow_le (by decide) (by decide))
      hwindow, by decide⟩

theorem acceptedBy315_of_three {a b c : Nat} (ha : a < 23) (hb : b < 23) (hc : c < 23) :
    AcceptedBy315 (BitVec.twoPow 23 a ^^^ BitVec.twoPow 23 b ^^^ BitVec.twoPow 23 c) := by
  wlog hab : a ≤ b generalizing a b
  · rw [BitVec.xor_comm (BitVec.twoPow 23 a)]
    exact this hb ha (Nat.le_of_not_le hab)
  rcases Nat.le_total b c with hbc | hcb
  · exact acceptedBy315_of_sorted hab hbc hc
  rcases Nat.le_total a c with hac | hca
  · rw [BitVec.xor_assoc, BitVec.xor_comm (BitVec.twoPow 23 b), ← BitVec.xor_assoc]
    exact acceptedBy315_of_sorted hac hcb hb
  · rw [BitVec.xor_comm, ← BitVec.xor_assoc]
    exact acceptedBy315_of_sorted hca hab hb

theorem acceptedBy315_of_popcount_le {e : Word23} (h : popcount e ≤ 3) : AcceptedBy315 e := by
  obtain h | h := h.lt_or_eq
  obtain h | h := (Nat.le_of_lt_succ h).lt_or_eq
  obtain h | h := (Nat.le_of_lt_succ h).lt_or_eq
  · rw [popcount_eq_zero_iff.1 (Nat.lt_one_iff.1 h)]
    exact ⟨⟨0, none⟩, accepts_of_inWindow rfl (by decide), by decide⟩
  · obtain ⟨c, hc, rfl⟩ := eq_twoPow_of_popcount_eq_one h
    rw [← BitVec.zero_xor (x := BitVec.twoPow 23 c)]
    exact acceptedBy315_of_inWindow (n := 0) (by decide) hc (by decide) rfl
  · obtain ⟨a, ha, c, hc, rfl⟩ := eq_xor_twoPow_of_popcount_eq_two h
    exact acceptedBy315_of_inWindow (n := 12 - a) (Nat.sub_le _ _) hc (by rw [popcount_twoPow ha]; decide)
      (inWindow_rotl23_twoPow ha le_rfl (Nat.le_add_right a 10))
  · obtain ⟨c, hc, htwo⟩ := exists_popcount_xor_twoPow h
    obtain ⟨a, ha, b, hb, hab⟩ := eq_xor_twoPow_of_popcount_eq_two htwo
    rw [← xor_twoPow_cancel e c, hab]
    exact acceptedBy315_of_three ha hb hc

/-- Every word is a codeword with at most three errors, and the probes see only the errors (43_decoder.md R89). -/
theorem acceptedBy315 (r : Word23) : AcceptedBy315 r := by
  obtain ⟨c, hc, hdist⟩ := exists_isNearest r
  obtain ⟨p, haccept, hnumber⟩ := acceptedBy315_of_popcount_le hdist
  rw [← accepts_codeword_xor hc, xor_cancel_left] at haccept
  exact ⟨p, haccept, hnumber⟩

/-- The search never fails: it ends at an accepting probe, up to number 315 (43_decoder.md R88). -/
theorem exists_search (r : Word23) :
    ∃ p, search r = ⟨reconstruct (probedWord r p) (probeSyndrome r p) p.rot.val, some p⟩ ∧ accepts r p = true ∧
      p.number ≤ 315 := by
  obtain ⟨q, haccept, hnumber⟩ := acceptedBy315 r
  rcases exists_first_accepts_or_reject r with ⟨p, hp, hfirst⟩ | hreject
  · refine ⟨p, search_of_first hp hfirst, hp, Nat.le_of_not_lt fun hlt => ?_⟩
    exact Bool.false_ne_true ((hfirst q (Nat.lt_of_le_of_lt hnumber hlt)).symm.trans haccept)
  · exact absurd ((hreject q).symm.trans haccept) Bool.false_ne_true

theorem search_found (r : Word23) : (search r).found = true := by
  obtain ⟨p, hsearch, -⟩ := exists_search r
  rw [hsearch]
  rfl

theorem isNearest_search (r : Word23) : IsNearest r (search r).codeword := by
  obtain ⟨p, hsearch, haccept, -⟩ := exists_search r
  rw [hsearch]
  exact isNearest_reconstruct haccept

/-- The search finds NEAREST(r) (43_decoder.md R88). -/
theorem IsNearest.eq_search {r c : Word23} (h : IsNearest r c) : c = (search r).codeword :=
  h.unique (isNearest_search r)

/-- The search leaves a word as it is exactly when the word is a codeword (43_decoder.md R90). -/
theorem search_codeword_eq_self_iff (r : Word23) : (search r).codeword = r ↔ IsCodeword r := by
  refine ⟨fun h => h ▸ (isNearest_search r).1, ?_⟩
  rintro ⟨d, rfl⟩
  rw [search_codeword23]

/-- Settles O34: the search ends at a nearest codeword, which for a codeword is the word itself. -/
theorem atMostThreeBitsAreFlipped : Obligations.AtMostThreeBitsAreFlipped := by
  refine fun r _ => ⟨(isNearest_search r).2, distance_eq_zero_iff.trans (search_codeword_eq_self_iff r), ?_⟩
  rintro ⟨d, rfl⟩
  refine ⟨by rw [search_codeword23], ?_⟩
  rw [probeSyndrome, probedWord_eq, flipTrial_none]
  exact (congrArg syndrome (rotl23_zero _)).trans (syndrome_codeword23 d)

end Sys2Proof.Machine
end

section
/-! Which probe the search of a pattern of at most three errors ends at, from the bits below the window in each rotation:
a probe accepts such a pattern only when it traps it (43_decoder.md R80, R88). -/

namespace Sys2Proof.Machine

theorem belowWindow_check_append (k : Check) (d : Data) : belowWindow (k.append d) = d :=
  BitVec.eq_of_getLsbD_eq fun j hj => by
    rw [getLsbD_belowWindow _ hj]
    exact (getLsbD_check_append k d j).trans (if_pos hj)

theorem popcount_belowWindow_le (v : Word23) : popcount (belowWindow v) ≤ popcount v :=
  calc popcount (belowWindow v)
      ≤ popcount (v.extractLsb' 12 11) + popcount (belowWindow v) := Nat.le_add_left _ _
    _ = popcount v := (popcount_append _ _).symm.trans (congrArg popcount (check_append_data v))

theorem belowWindow_twoPow {k : Nat} (hk : k < 12) : belowWindow (BitVec.twoPow 23 k) = BitVec.twoPow 12 k :=
  BitVec.eq_of_getLsbD_eq fun j hj => by
    rw [getLsbD_belowWindow _ hj, BitVec.getLsbD_twoPow, BitVec.getLsbD_twoPow, decide_eq_true hk,
      decide_eq_true (hk.trans (by decide))]

/-- A probe that accepts a pattern of at most three errors has trapped it: it flips just these errors. -/
theorem inWindow_of_accepts {e : Word23} {p : Probe} (he : popcount e ≤ 3) (h : accepts e p = true) :
    InWindow (probedWord e p) := by
  have hzero : IsNearest e 0#23 :=
    ⟨⟨0#12, codeword23_linear.map_zero.symm⟩, by rwa [distance_eq, BitVec.zero_xor]⟩
  have hback : rotl23 (rotr23 (probedWord e p ^^^ (probeSyndrome e p).setWidth 23) p.rot.val) p.rot.val =
      rotl23 0#23 p.rot.val := congrArg (rotl23 · p.rot.val) ((isNearest_reconstruct h).unique hzero)
  rw [rotl23_rotr23 _ p.rot.isLt, rotl23_zero_word p.rot.isLt, BitVec.xor_eq_zero_iff] at hback
  rw [hback, probeSyndrome, setWidth_syndrome, inWindow_iff, belowWindow_check_append]

theorem two_le_threshold (t : Trial) : 2 ≤ threshold t := by
  cases t with
  | none => exact threshold_none ▸ Nat.le_succ 2
  | some t => exact (threshold_some t).ge

/-- What a probe leaves below the window: the rotated pattern, but for the trial bit. -/
theorem popcount_belowWindow_rotl23_le (e : Word23) (p : Probe) (h : InWindow (probedWord e p)) :
    popcount (belowWindow (rotl23 e p.rot.val)) ≤ 1 := by
  have hflip := distance_flipTrial_add_threshold (rotl23 e p.rot.val) p.trial
  have hthreshold := two_le_threshold p.trial
  have hlow : belowWindow (rotl23 e p.rot.val) = belowWindow (probedWord e p ^^^ rotl23 e p.rot.val) := by
    rw [belowWindow_linear, (inWindow_iff _).1 h, BitVec.zero_xor]
  rw [hlow]
  refine (popcount_belowWindow_le _).trans ?_
  rw [probedWord_eq, ← distance_eq]
  omega

theorem probedWord_eq_xor (r : Word23) (p : Probe) :
    probedWord r p = rotl23 r p.rot.val ^^^ flipTrial 0#23 p.trial := by
  rw [← flipTrial_xor, BitVec.xor_zero, probedWord_eq]

/-- With one bit t below the window, only the trial bit t brings the pattern into the window. -/
theorem trial_of_inWindow {e : Word23} {p : Probe} {t : Fin 23} (ht : t.val < 12)
    (hlow : belowWindow (rotl23 e p.rot.val) = BitVec.twoPow 12 t) (h : InWindow (probedWord e p)) :
    p.trial = some t := by
  rw [probedWord_eq_xor, inWindow_iff, belowWindow_linear, hlow, BitVec.xor_eq_zero_iff] at h
  have hbit : (flipTrial 0#23 p.trial).getLsbD t = true := by
    have hbelow := congrArg (BitVec.getLsbD · t) h
    rw [getLsbD_belowWindow _ ht] at hbelow
    exact hbelow.symm.trans (getLsbD_twoPow_self ht)
  cases htrial : p.trial with
  | none =>
    rw [htrial, flipTrial_none, BitVec.getLsbD_zero] at hbit
    cases hbit
  | some u =>
    rw [htrial, flipTrial_some, BitVec.zero_xor, BitVec.getLsbD_twoPow] at hbit
    have hut : u.val = t.val := of_decide_eq_true (Bool.and_eq_true_iff.1 hbit).2
    rw [Fin.ext hut]

theorem accepts_of_belowWindow {e : Word23} {i t : Fin 23} (he : popcount e ≤ 3) (ht : t.val < 12)
    (hlow : belowWindow (rotl23 e i.val) = BitVec.twoPow 12 t) : accepts e ⟨i, some t⟩ = true := by
  have hprobed : probedWord e ⟨i, some t⟩ = rotl23 e i.val ^^^ BitVec.twoPow 23 t := rfl
  have hbit : (rotl23 e i.val).getLsbD t = true := by
    have h := congrArg (BitVec.getLsbD · t) hlow
    rw [getLsbD_belowWindow _ ht] at h
    exact h.trans (getLsbD_twoPow_self ht)
  have hcount := popcount_xor_add (rotl23 e i.val) (BitVec.twoPow 23 t)
  rw [popcount_and_twoPow _ t.isLt, popcount_twoPow t.isLt, popcount_rotl23 e i.isLt, hbit, Bool.toNat_true] at hcount
  have hthreshold := two_le_threshold (some t)
  refine accepts_of_inWindow ?_ ?_
  · rw [hprobed, inWindow_iff, belowWindow_linear, hlow, belowWindow_twoPow ht, BitVec.xor_self]
  · rw [hprobed]
    dsimp only
    omega

theorem Probe.rot_le_of_number_lt {p q : Probe} (h : q.number < p.number) : q.rot ≤ p.rot := by
  refine Fin.le_def.2 (Nat.le_of_not_lt fun hlt => Nat.not_lt.2 ?_ h)
  calc p.number ≤ 24 * (p.rot.val + 1) := p.number_bounds.2
    _ ≤ 24 * q.rot.val := Nat.mul_le_mul_left 24 hlt
    _ ≤ q.number := Nat.le_of_lt q.number_bounds.1

/-- The search for a pattern of at most three errors ends where the rotated pattern has for the first time less than two
bits below the window, at the trial bit that is the one bit there. -/
theorem search_probe_of_belowWindow {e : Word23} {i t : Fin 23} (he : popcount e ≤ 3) (ht : t.val < 12)
    (hlow : belowWindow (rotl23 e i.val) = BitVec.twoPow 12 t)
    (hbefore : ∀ j < i, 2 ≤ popcount (belowWindow (rotl23 e j.val))) : (search e).probe = some ⟨i, some t⟩ := by
  refine (search_probe_eq_some_iff _ _).2 ⟨accepts_of_belowWindow he ht hlow, fun q hq => ?_⟩
  refine Bool.eq_false_iff.2 fun haccept => ?_
  have hwindow := inWindow_of_accepts he haccept
  rcases (Probe.rot_le_of_number_lt hq).lt_or_eq with hlt | heq
  · have hle := popcount_belowWindow_rotl23_le e q hwindow
    have hge := hbefore q.rot hlt
    omega
  · obtain ⟨j, u⟩ := q
    obtain rfl : j = i := heq
    obtain rfl : u = some t := trial_of_inWindow (p := ⟨j, u⟩) ht hlow hwindow
    exact Nat.lt_irrefl _ hq

/-- Settles O32: probe (13, 1) is reached for errors in bits 0, 11 and 22. -/
theorem searchAlwaysFindsTheNearestCodeword : Obligations.SearchAlwaysFindsTheNearestCodeword := by
  refine ⟨fun r => ⟨search_found r, isNearest_search r, fun p hp => ?_⟩, ⟨0x400801#23, ?_⟩, rfl⟩
  · obtain ⟨q, hsearch, -, hnumber⟩ := exists_search r
    rw [hsearch] at hp
    exact Option.some.inj hp ▸ hnumber
  · exact search_probe_of_belowWindow (by decide) (by decide) (by decide) (by decide)

end Sys2Proof.Machine
end

section
/-! The responses of DEC and DECX written out (43_decoder.md R91, R94), and the extended distance as a Hamming distance
(R93). -/

namespace Sys2Proof.Machine

theorem append_zext24 (b : BitVec 8) (c : Word23) : b.append (zext24 c) = (b.append 0#1).append c := by
  rw [zext24_eq_append]
  exact BitVec.eq_of_toNat_eq (toNat_append_assoc b 0#1 c)

/-- A word under its parity bit: the extended codeword of a basic codeword (40_encoder.md R64). -/
def extendedWord (c : Word23) : Word24 := withParity (parity23 (zext24 c)) c

theorem extendedWord_codeword23 (d : Data) : extendedWord (codeword23 d) = encxResult d :=
  (encxResult_eq_withParity d).symm

theorem ofBool_parity23 (c : Word23) : BitVec.ofBool (parity23 (zext24 c)) = BitVec.ofNat 1 (popcount c % 2) := by
  rw [← parity23_zext24]
  cases parity23 (zext24 c) <;> rfl

theorem append_extendedWord (b : BitVec 8) (c : Word23) :
    b.append (extendedWord c) = (b.append (BitVec.ofNat 1 (popcount c % 2))).append c :=
  BitVec.eq_of_toNat_eq <| (congrArg (fun p : BitVec 1 => (b.append (p.append c)).toNat) (ofBool_parity23 c)).trans
    (toNat_append_assoc b _ c)

theorem extractLsb'_bit23 (x : Word24) : x.extractLsb' 23 1 = BitVec.ofBool (parityBit x) :=
  BitVec.eq_of_getLsbD_eq fun j hj => by
    obtain rfl : j = 0 := by omega
    simp [parityBit]

theorem withParity_parityBit (x : Word24) : withParity (parityBit x) (word23Of x) = x := by
  rw [withParity, ← extractLsb'_bit23]
  exact (BitVec.extractLsb'_append_extractLsb'_eq_extractLsb' rfl).trans BitVec.extractLsb'_eq_self

theorem distance_withParity (p q : Bool) (a b : Word23) :
    distance (withParity p a) (withParity q b) = distance a b + (p ^^ q).toNat := by
  have hxor : withParity p a ^^^ withParity q b = withParity (p ^^ q) (a ^^^ b) := by
    rw [withParity, withParity, withParity, ← BitVec.ofBool_xor_ofBool]
    exact BitVec.xor_append
  rw [distance_eq, hxor, popcount_withParity, Nat.add_comm, distance_eq]

/-- k + mm counts the bits of the basic part and the parity bit (43_decoder.md R93). -/
theorem distance_extendedWord (c : Word23) (x : Word24) :
    distance (extendedWord c) x = distance c (word23Of x) + (parityMismatch c x).toNat :=
  (congrArg (distance (extendedWord c)) (withParity_parityBit x).symm).trans (distance_withParity _ _ _ _)

theorem extendedDistance_eq_distance (c : Word23) (x : Word24) :
    extendedDistance (flips c (word23Of x)) (parityMismatch c x) = distance (extendedWord c) x := by
  rw [distance_extendedWord, extendedDistance, flips_eq_popcount, distance_eq]

/-- The distance of the parity bits is mm (43_decoder.md R93). -/
theorem distance_parityBit (c : Word23) (x : Word24) :
    distance (BitVec.ofNat 1 (popcount c % 2)) (x.extractLsb' 23 1) = (parityMismatch c x).toNat := by
  rw [distance_eq, ← ofBool_parity23, extractLsb'_bit23, BitVec.ofBool_xor_ofBool, popcount_ofBool, parityMismatch]

theorem decStatus_zero : decStatus 0 = .clean := rfl

theorem decStatus_of_pos {k : Nat} (h : 1 ≤ k) : decStatus k = .corrected := if_neg (by omega)

theorem decxStatus_of_le {k : Nat} (h : k ≤ 3) : decxStatus k = decStatus k :=
  if_congr Iff.rfl rfl (if_pos h)

theorem decResponse_found (r c : Word23) : decResponse r true c = rsp (zext24 c) (decStatus (distance c r)) false := by
  rw [decResponse, if_pos rfl, flips_eq_popcount, distance_eq]

theorem decxResponse_near {r : Word24} {c : Word23} (h : distance (extendedWord c) r ≤ 3) :
    decxResponse r true c = rsp (extendedWord c) (decStatus (distance (extendedWord c) r)) false := by
  rw [decxResponse, if_pos rfl, extendedDistance_eq_distance, decxStatus_of_le h]
  rcases Nat.eq_zero_or_pos (distance (extendedWord c) r) with hzero | hpos
  · rw [hzero, decStatus_zero]
    rfl
  · rw [decStatus_of_pos hpos]
    rfl

theorem decxResponse_far {r : Word24} {c : Word23} (h : 4 ≤ distance (extendedWord c) r) :
    decxResponse r true c = rsp r .uncorrectable true := by
  rw [decxResponse, if_pos rfl, extendedDistance_eq_distance, (decxStatus_eq_uncorrectable_iff _).2 h]

/-- The response of DEC by its three outcomes (43_decoder.md R91). -/
theorem decResponse_eq (r : Word23) (found : Bool) (c : Word23) :
    decResponse r found c =
      if found = false then rsp (zext24 r) .uncorrectable false
      else if distance c r = 0 then rsp (zext24 c) .clean false
      else rsp (zext24 c) .corrected false := by
  cases found with
  | false => rfl
  | true =>
    rw [decResponse_found, if_neg Bool.true_eq_false.mp]
    split_ifs with hzero
    · rw [hzero, decStatus_zero]
    · rw [decStatus_of_pos (Nat.pos_of_ne_zero hzero)]

/-- The response of DECX by its four outcomes (43_decoder.md R94). -/
theorem decxResponse_eq (r : Word24) (found : Bool) (c : Word23) :
    decxResponse r found c =
      if found = false then rsp r .uncorrectable false
      else if distance (extendedWord c) r = 0 then rsp (extendedWord c) .clean false
      else if distance (extendedWord c) r ≤ 3 then rsp (extendedWord c) .corrected false
      else rsp r .uncorrectable true := by
  cases found with
  | false => rfl
  | true =>
    rw [if_neg Bool.true_eq_false.mp]
    split_ifs with hzero hle
    · rw [decxResponse_near (by omega), hzero, decStatus_zero]
    · rw [decxResponse_near hle, decStatus_of_pos (Nat.pos_of_ne_zero hzero)]
    · exact decxResponse_far (by omega)

/-- The same with the bytes of the four outcomes, the flipped bits counted with the parity bit (43_decoder.md R94). -/
theorem decxResponse_eq_append (r : Word24) (found : Bool) (c : Word23) :
    decxResponse r found c =
      if found = false then (0x02#8).append r
      else if distance c (word23Of r) + distance (BitVec.ofNat 1 (popcount c % 2)) (r.extractLsb' 23 1) = 0 then
        ((0x00#8).append (BitVec.ofNat 1 (popcount c % 2))).append c
      else if distance c (word23Of r) + distance (BitVec.ofNat 1 (popcount c % 2)) (r.extractLsb' 23 1) ≤ 3 then
        ((0x01#8).append (BitVec.ofNat 1 (popcount c % 2))).append c
      else (0x06#8).append r := by
  rw [distance_parityBit, ← distance_extendedWord, ← append_extendedWord, ← append_extendedWord]
  exact decxResponse_eq r found c

/-- DEC does not read bit 23 of its operand (43_decoder.md R91). -/
theorem word23Of_xor_bit23 (x : Operand) : word23Of (x ^^^ 0x800000#24) = word23Of x := by
  have hbit : word23Of 0x800000#24 = 0#23 := by decide
  calc word23Of (x ^^^ 0x800000#24) = word23Of x ^^^ word23Of 0x800000#24 := BitVec.extractLsb'_xor
    _ = word23Of x := by rw [hbit, BitVec.xor_zero]

end Sys2Proof.Machine
end

section
/-! DEC and DECX answer by the nearest codeword: what they give for each error on a codeword (43_decoder.md R91 to R99). -/

namespace Sys2Proof.Machine

theorem rspDec_of_isNearest {x : Operand} {c : Word23} (h : IsNearest (word23Of x) c) :
    rspDec x = decResponse (word23Of x) true c := by
  rw [rspDec, search_found, ← h.eq_search]

theorem rspDecx_of_isNearest {x : Operand} {c : Word23} (h : IsNearest (word23Of x) c) :
    rspDecx x = decxResponse x true c := by
  rw [rspDecx, search_found, ← h.eq_search, word24Of]

theorem respond_dec (x : Operand) : respond (encode (.dec x)) = rspDec x := respond_encode _

theorem respond_decx (x : Operand) : respond (encode (.decx x)) = rspDecx x := respond_encode _

theorem distance_xor_self {n : Nat} (c e : BitVec n) : distance c (c ^^^ e) = popcount e := by
  rw [distance_eq, xor_cancel_left]

/-- DEC corrects up to three errors (43_decoder.md R92). -/
theorem rspDec_of_distance_le {x : Operand} {d : Data} (h : distance (codeword23 d) (word23Of x) ≤ 3) :
    rspDec x = rsp (encResult d) (decStatus (distance (codeword23 d) (word23Of x))) false := by
  rw [rspDec_of_isNearest ⟨⟨d, rfl⟩, h⟩, decResponse_found, encResult]

theorem rspDec_of_distance_eq {x : Operand} {d : Data} {c : Word23} {k : Nat} (hc : codeword23 d = c)
    (h : distance c (word23Of x) = k) (hk : k ≤ 3) : rspDec x = rsp (zext24 c) (decStatus k) false := by
  subst hc h
  exact rspDec_of_distance_le hk

theorem distance_codeword23_le (d : Data) (x : Word24) :
    distance (codeword23 d) (word23Of x) ≤ distance (encxResult d) x := by
  rw [← extendedWord_codeword23, distance_extendedWord]
  exact Nat.le_add_right _ _

/-- DECX corrects up to three errors (43_decoder.md R95). -/
theorem rspDecx_of_distance_le {x : Operand} {d : Data} (h : distance (encxResult d) x ≤ 3) :
    rspDecx x = rsp (encxResult d) (decStatus (distance (encxResult d) x)) false := by
  have hnear : IsNearest (word23Of x) (codeword23 d) := ⟨⟨d, rfl⟩, (distance_codeword23_le d x).trans h⟩
  rw [← extendedWord_codeword23] at *
  rw [rspDecx_of_isNearest hnear, decxResponse_near h]

theorem rspDecx_of_distance_eq {x : Operand} {d : Data} {c : Word24} {k : Nat} (hc : encxResult d = c)
    (h : distance c x = k) (hk : k ≤ 3) : rspDecx x = rsp c (decStatus k) false := by
  subst hc h
  exact rspDecx_of_distance_le hk

/-- DECX detects what is further than three errors from every extended codeword (43_decoder.md R94). -/
theorem rspDecx_of_forall_distance {x : Operand} (h : ∀ d, 4 ≤ distance (encxResult d) x) :
    rspDecx x = rsp x .uncorrectable true := by
  have hnear := isNearest_search (word23Of x)
  obtain ⟨d, hd⟩ := hnear.1
  rw [hd] at hnear
  exact (rspDecx_of_isNearest hnear).trans (decxResponse_far (extendedWord_codeword23 d ▸ h d))

/-- The least distance of the extended code is 8 (40_encoder.md R66). -/
theorem eq_of_distance_encxResult_le {d d' : Data} (h : distance (encxResult d) (encxResult d') ≤ 7) : d = d' := by
  have hmem := popcount_encxResult_mem (d ^^^ d')
  rw [encxResult_linear, ← distance_eq] at hmem
  simp only [List.mem_cons, List.not_mem_nil, or_false] at hmem
  have heq := distance_eq_zero_iff.1 (by omega : distance (encxResult d) (encxResult d') = 0)
  rw [← data_of_encxResult d, heq, data_of_encxResult]

/-- A word four errors from an extended codeword is no nearer to another. -/
theorem four_le_distance_encxResult {d : Data} {x : Operand} (h : distance (encxResult d) x = 4) (d' : Data) :
    4 ≤ distance (encxResult d') x := by
  by_contra hlt
  have htriangle := distance_triangle (encxResult d) x (encxResult d')
  rw [distance_comm x] at htriangle
  obtain rfl : d = d' := eq_of_distance_encxResult_le (by omega)
  omega

/-- DECX detects four errors (43_decoder.md R95). -/
theorem rspDecx_of_distance_eq_four {x : Operand} {d : Data} {c : Word24} (hc : encxResult d = c) (h : distance c x = 4) :
    rspDecx x = rsp x .uncorrectable true := by
  subst hc
  exact rspDecx_of_forall_distance (four_le_distance_encxResult h)

/-! The examples of the rules (43_decoder.md R91, R94): each operand as a codeword with an error. -/

theorem codeword23_0x000 : codeword23 0x000#12 = 0x000000#23 := by decide

theorem codeword23_0x1FF : codeword23 0x1FF#12 = 0x3D21FF#23 := by decide

theorem codeword23_0xFFF : codeword23 0xFFF#12 = 0x7FFFFF#23 := by decide

theorem encxResult_0x000 : encxResult 0x000#12 = 0x000000#24 := by decide

theorem encxResult_0x1FF : encxResult 0x1FF#12 = 0xBD21FF#24 := by decide

theorem encxResult_0xFFF : encxResult 0xFFF#12 = 0xFFFFFF#24 := by decide

theorem search_probe_0x000001 : (search 0x000001#23).probe = some ⟨0, some 0⟩ :=
  search_probe_of_belowWindow (by decide) (by decide) (by decide) (by decide)

theorem search_probe_0x3D31B7 : (search 0x3D31B7#23).probe = some ⟨6, some 9⟩ := by
  have herror : (0x3D31B7#23 : Word23) = codeword23 0x1FF#12 ^^^ 0x001048#23 := by
    rw [codeword23_0x1FF]
    decide
  rw [herror, search_probe_codeword_xor ⟨_, rfl⟩]
  exact search_probe_of_belowWindow (by decide) (by decide) (by decide) (by decide)

theorem rspWord_of_exec_dec {x : Operand} {s t : State} {d : Data} {c : Word23} {k : Nat}
    (ht : exec (.dec x) s = .next t) (hc : codeword23 d = c) (h : distance c (word23Of x) = k) (hk : k ≤ 3) :
    t.rspWord = rsp (zext24 c) (decStatus k) false :=
  (rspWord_of_exec ht).trans (rspDec_of_distance_eq hc h hk)

theorem rspWord_of_exec_decx {x : Operand} {s t : State} {d : Data} {c : Word24} {k : Nat}
    (ht : exec (.decx x) s = .next t) (hc : encxResult d = c) (h : distance c x = k) (hk : k ≤ 3) :
    t.rspWord = rsp c (decStatus k) false := by
  rw [rspWord_of_exec ht, respondInstr, rspDecx_of_distance_eq hc h hk]

theorem rspWord_of_exec_decx_four {x : Operand} {s t : State} {d : Data} {c : Word24} (ht : exec (.decx x) s = .next t)
    (hc : encxResult d = c) (h : distance c x = 4) : t.rspWord = rsp x .uncorrectable true := by
  rw [rspWord_of_exec ht, respondInstr, rspDecx_of_distance_eq_four hc h]

/-- Settles O23: DEC completes with `rspDec`. -/
theorem decCompletesWithTheSearchResult : Obligations.DecCompletesWithTheSearchResult := by
  refine ⟨fun x => decode_encode (.dec x), fun x s => ⟨_, exec_eq _ s, ?_⟩, fun x s t ht => ⟨?_, ?_, ?_, ?_, ?_⟩⟩
  · have hresponse := (decResponse_eq (word23Of x) (search (word23Of x)).found (search (word23Of x)).codeword).trans
      (if_congr Iff.rfl (append_zext24 0x02#8 _) (if_congr Iff.rfl (append_zext24 0x00#8 _) (append_zext24 0x01#8 _)))
    exact hresponse ▸ completed_complete s (rspDec x)
  case refine_5 =>
    have hignored : respondInstr (.dec (x ^^^ 0x800000#24)) = respondInstr (.dec x) :=
      congrArg (fun r => decResponse r (search r).found (search r).codeword) (word23Of_xor_bit23 x)
    rw [← ht, exec_eq, exec_eq, hignored]
  all_goals rintro rfl
  · exact (rspWord_of_exec_dec (k := 0) ht codeword23_0x000 (by decide) (by decide)).trans (by decide)
  · exact (rspWord_of_exec_dec (k := 0) ht codeword23_0xFFF (by decide) (by decide)).trans (by decide)
  · exact ⟨(rspWord_of_exec_dec (k := 1) ht codeword23_0x000 (by decide) (by decide)).trans (by decide),
      search_probe_0x000001⟩
  · exact ⟨(rspWord_of_exec_dec (k := 3) ht codeword23_0x1FF (by decide) (by decide)).trans (by decide),
      search_probe_0x3D31B7⟩

/-- Settles O24: DECX completes with `rspDecx`. -/
theorem decxCompletesWithTheParityCheckedResult : Obligations.DecxCompletesWithTheParityCheckedResult := by
  refine ⟨fun x => decode_encode (.decx x), fun x s => ⟨_, exec_eq _ s, ?_⟩,
    fun x s t ht => ⟨?_, ?_, ?_, ?_, ?_, ?_⟩⟩
  · exact decxResponse_eq_append x (search (word23Of x)).found (search (word23Of x)).codeword ▸
      completed_complete s (rspDecx x)
  all_goals rintro rfl
  · exact (rspWord_of_exec_decx (k := 0) ht encxResult_0x000 (by decide) (by decide)).trans (by decide)
  · exact (rspWord_of_exec_decx (k := 0) ht encxResult_0xFFF (by decide) (by decide)).trans (by decide)
  · exact (rspWord_of_exec_decx (k := 1) ht encxResult_0x000 (by decide) (by decide)).trans (by decide)
  · exact rspWord_of_exec_decx_four ht encxResult_0x000 (by decide)
  · exact (rspWord_of_exec_decx (k := 3) ht encxResult_0x1FF (by decide) (by decide)).trans (by decide)
  · exact rspWord_of_exec_decx_four ht encxResult_0x1FF (by decide)

end Sys2Proof.Machine
end

section
/-! The guarantees of the two decoders (43_decoder.md R92 to R99). -/

namespace Sys2Proof.Machine

/-- A nearest codeword found has at most four bits to flip with the parity bit (43_decoder.md R93). -/
theorem distance_extendedWord_le {x : Word24} {c : Word23} (h : IsNearest (word23Of x) c) :
    distance (extendedWord c) x ≤ 4 := by
  have hle := h.2
  have hbit := Bool.toNat_le (parityMismatch c x)
  rw [distance_extendedWord]
  omega

/-- Settles O37: mm is the distance of the parity bits. -/
theorem extendedDistanceIsAtMostFour : Obligations.ExtendedDistanceIsAtMostFour := by
  intro r
  have heq := extendedDistance_eq_distance (search (word23Of r)).codeword r
  refine ⟨rfl, ?_, heq, heq.trans_le (distance_extendedWord_le (isNearest_search _))⟩
  have hbit : ∀ mm : Bool, mm.toNat = if mm then 1 else 0 := by decide
  exact congrArg _ (hbit _)

/-- Every operand is within three errors of an extended codeword, or further from each (43_decoder.md R94). -/
theorem near_or_far (x : Word24) :
    (∃ d, distance (encxResult d) x ≤ 3) ∨ ∀ d, 4 ≤ distance (encxResult d) x := by
  by_cases h : ∃ d, distance (encxResult d) x ≤ 3
  · exact .inl h
  · exact .inr fun d => Nat.lt_of_not_le fun hle => h ⟨d, hle⟩

theorem decStatus_ne_uncorrectable (k : Nat) : (decStatus k).bits ≠ 0b10#2 := by
  rcases Nat.eq_zero_or_pos k with rfl | hpos
  · decide
  · rw [decStatus_of_pos hpos]
    decide

/-- Settles O38: DEC never fails, and DECX fails exactly on what is further than three errors from every extended
codeword. -/
theorem uncorrectableReturnsTheReceivedWord : Obligations.UncorrectableReturnsTheReceivedWord := by
  refine ⟨fun r _ => append_zext24 0x02#8 r, fun _ _ => rfl, fun x => ?_⟩
  have hstatus (res st pm) : (rsp res st pm).extractLsb' 24 2 = st.bits := statusField_rsp res st pm
  have hresult (res st pm) : (rsp res st pm).extractLsb' 0 24 = res := resultField_rsp res st pm
  rw [respond_dec, respond_decx, ← and_assoc]
  constructor
  · have hnear := isNearest_search (word23Of x)
    obtain ⟨d, hd⟩ := hnear.1
    rw [hd] at hnear
    rw [rspDec_of_distance_le hnear.2, hstatus, hresult]
    exact ⟨fun h => absurd h (decStatus_ne_uncorrectable _), fun _ => ⟨d, rfl⟩⟩
  · rcases near_or_far x with ⟨d, hle⟩ | hfar
    · rw [rspDecx_of_distance_le hle, hstatus, hresult]
      exact ⟨fun h => absurd h (decStatus_ne_uncorrectable _), fun _ => ⟨d, rfl⟩⟩
    · rw [rspDecx_of_forall_distance hfar, hstatus, hresult]
      exact ⟨fun _ => rfl, fun h => absurd rfl h⟩

/-- What a nearest codeword says of the two responses (43_decoder.md R98, R99). -/
theorem IsNearest.responses {x : Operand} {c : Word23} (h : IsNearest (word23Of x) c) :
    c = (search (word23Of x)).codeword ∧ respond (encode (.dec x)) = decResponse (word23Of x) true c ∧
      respond (encode (.decx x)) = decxResponse x true c :=
  ⟨h.eq_search, (respond_dec x).trans (rspDec_of_isNearest h), (respond_decx x).trans (rspDecx_of_isNearest h)⟩

/-- The right rotation by i is the left rotation by (23 - i) mod 23 (43_decoder.md R77, R98). -/
theorem exists_right_probe (r : Word23) :
    ∃ (i : Fin 23) (t : Trial), weight (syndrome (flipTrial (rotr23 r i.val) t)) ≤ threshold t := by
  obtain ⟨p, hp, -⟩ := acceptedBy315 r
  have hback : ∀ i : Fin 23, (23 - (23 - i.val) % 23) % 23 = i.val := by decide
  refine ⟨⟨_, mod23_lt (23 - p.rot.val)⟩, p.trial, ?_⟩
  have hright : rotr23 r ((23 - p.rot.val) % 23) = rotl23 r p.rot.val := congrArg (rotl23 r) (hback p.rot)
  rw [hright]
  exact of_decide_eq_true hp

/-- Settles O39: each accepting probe reconstructs the nearest codeword. -/
theorem resultIsIndependentOfOrderAndDirection : Obligations.ResultIsIndependentOfOrderAndDirection := by
  intro x
  obtain ⟨p, hp, -⟩ := acceptedBy315 (word23Of x)
  exact ⟨fun _ h => (isNearest_reconstruct h).responses, ⟨p, hp⟩,
    fun _ _ h => (isNearest_reconstruct_right h).responses, exists_right_probe (word23Of x)⟩

/-- Settles O40: the search finds the nearest codeword. -/
theorem decodesAreDefinedByTheNearestCodeword : Obligations.DecodesAreDefinedByTheNearestCodeword := by
  intro x c h
  obtain ⟨-, hdec, hdecx⟩ := IsNearest.responses h
  refine ⟨hdec.trans ?_, hdecx.trans (decxResponse_eq_append x true c)⟩
  rw [decResponse_found]
  have hself : distance c (word23Of x) = 0 ↔ c = x.extractLsb' 0 23 := distance_eq_zero_iff
  by_cases hc : c = x.extractLsb' 0 23
  · rw [if_pos hc, hself.2 hc]
    exact append_zext24 0x00#8 c
  · rw [if_neg hc, decStatus_of_pos (Nat.pos_of_ne_zero (mt hself.1 hc))]
    exact append_zext24 0x01#8 c

/-- Settles O35: up to three errors leave the codeword the nearest; with more, the nearest is another. -/
theorem decCorrectsUpToThreeErrors : Obligations.DecCorrectsUpToThreeErrors := by
  intro d e x hx
  have hword : word23Of x = codeword23 d ^^^ e := hx.trans (congrArg (· ^^^ e) (word23Of_zext24 _))
  have hdist : distance (codeword23 d) (word23Of x) = popcount e := by rw [hword, distance_xor_self]
  rw [respond_dec]
  refine ⟨fun h => ?_, fun hpos hle => ?_, fun hmany => ?_⟩
  · rw [rspDec_of_distance_eq rfl (hdist.trans h) (Nat.zero_le 3)]
    rfl
  · rw [rspDec_of_distance_eq rfl hdist hle, decStatus_of_pos hpos]
    rfl
  · have hnear := isNearest_search (word23Of x)
    have hself := search_codeword_eq_self_iff (word23Of x)
    obtain ⟨d', hd'⟩ := hnear.1
    rw [hd'] at hnear hself
    have hencResult : (encResult d').extractLsb' 0 23 = codeword23 d' := word23Of_zext24 _
    refine ⟨d', ?_, hencResult.symm ▸ hnear, fun hc => ?_, fun hnc => ?_⟩
    · rintro rfl
      have hle := hnear.2
      omega
    · rw [rspDec_of_distance_eq rfl (distance_eq_zero_iff.2 (hself.2 hc)) (Nat.zero_le 3)]
      rfl
    · have hpos := Nat.pos_of_ne_zero (mt (hself.1 ∘ distance_eq_zero_iff.1) hnc)
      rw [rspDec_of_distance_le hnear.2, decStatus_of_pos hpos]
      rfl

/-- Settles O36: the extended code has least distance 8. -/
theorem decxCorrectsThreeAndDetectsFourErrors : Obligations.DecxCorrectsThreeAndDetectsFourErrors := by
  intro d e
  have hdist := distance_xor_self (encxResult d) e
  rw [respond_decx]
  refine ⟨fun h => ?_, fun hpos hle => ?_, fun h => rspDecx_of_distance_eq_four rfl (hdist.trans h)⟩
  · rw [rspDecx_of_distance_eq rfl (hdist.trans h) (Nat.zero_le 3)]
    rfl
  · rw [rspDecx_of_distance_eq rfl hdist hle, decStatus_of_pos hpos]
    rfl

end Sys2Proof.Machine
end

section
/-! How many operands each outcome of DECX has (43_decoder.md R96). -/

namespace Sys2Proof.Machine

/-- The operands at one of the given distances from some extended codeword. -/
def operandsAt (K : Finset Nat) : Set Operand := {x | ∃ d, distance (encxResult d) x ∈ K}

/-- The balls of radius three around the extended codewords are disjoint. -/
theorem eq_of_near {d d' : Data} {x : Word24} (h : distance (encxResult d) x ≤ 3) (h' : distance (encxResult d') x ≤ 3) :
    d = d' := by
  have htriangle := distance_triangle (encxResult d) x (encxResult d')
  rw [distance_comm x] at htriangle
  exact eq_of_distance_encxResult_le (by omega)

theorem ncard_operandsAt {K : Finset Nat} (hK : ∀ k ∈ K, k ≤ 3) :
    (operandsAt K).ncard = 2 ^ 12 * ∑ k ∈ K, Nat.choose 24 k := by
  have himage : operandsAt K =
      (fun q : Data × Word24 => encxResult q.1 ^^^ q.2) '' (Set.univ ×ˢ {e | popcount e ∈ K}) := by
    ext x
    constructor
    · rintro ⟨d, hd⟩
      exact ⟨(d, encxResult d ^^^ x), ⟨Set.mem_univ _, hd⟩, xor_cancel_left _ _⟩
    · rintro ⟨⟨d, e⟩, ⟨-, he⟩, rfl⟩
      exact ⟨d, (distance_xor_self _ e).symm ▸ he⟩
  have hinj : Set.InjOn (fun q : Data × Word24 => encxResult q.1 ^^^ q.2) (Set.univ ×ˢ {e | popcount e ∈ K}) := by
    rintro ⟨d, e⟩ ⟨-, he⟩ ⟨d', e'⟩ ⟨-, he'⟩ (heq : encxResult d ^^^ e = encxResult d' ^^^ e')
    have hd := (distance_xor_self (encxResult d) e).trans_le (hK _ he)
    have hd' := (distance_xor_self (encxResult d') e').trans_le (hK _ he')
    rw [← heq] at hd'
    obtain rfl : d = d' := eq_of_near hd hd'
    rw [← xor_cancel_left (encxResult d) e, heq, xor_cancel_left]
  rw [himage, hinj.ncard_image, Set.ncard_prod, ncard_univ_bitVec, ncard_popcount_mem]

theorem mem_operandsAt_of_near {x : Operand} {d : Data} {K : Finset Nat} (hK : ∀ k ∈ K, k ≤ 3)
    (h : distance (encxResult d) x ≤ 3) : x ∈ operandsAt K ↔ distance (encxResult d) x ∈ K := by
  refine ⟨?_, fun hd => ⟨d, hd⟩⟩
  rintro ⟨d', hd'⟩
  rwa [eq_of_near h (hK _ hd')]

theorem notMem_operandsAt_of_far {x : Operand} {K : Finset Nat} (hK : ∀ k ∈ K, k ≤ 3)
    (h : ∀ d, 4 ≤ distance (encxResult d) x) : x ∉ operandsAt K := by
  rintro ⟨d, hd⟩
  exact Nat.not_lt_of_le (hK _ hd) (h d)

/-- PMISM over STATUS, the three bits that tell the outcomes of DECX apart (10_state.md R21). -/
def outcome (x : Operand) : BitVec 3 := (respond (encode (.decx x))).extractLsb' 24 3

theorem extractLsb'_rsp_outcome (res : Word24) (st : DecodeStatus) (pm : Bool) :
    (rsp res st pm).extractLsb' 24 3 = (BitVec.ofBool pm).append st.bits := by
  refine (BitVec.extractLsb'_append_eq_of_le (by decide)).trans ?_
  cases st <;> cases pm <;> rfl

theorem outcome_of_near {x : Operand} {d : Data} (h : distance (encxResult d) x ≤ 3) :
    outcome x = if distance (encxResult d) x = 0 then 0b000#3 else 0b001#3 := by
  refine (congrArg (BitVec.extractLsb' 24 3) ((respond_decx x).trans (rspDecx_of_distance_le h))).trans ?_
  rw [extractLsb'_rsp_outcome]
  rcases Nat.eq_zero_or_pos (distance (encxResult d) x) with hzero | hpos
  · rw [hzero]
    rfl
  · rw [decStatus_of_pos hpos, if_neg (Nat.ne_of_gt hpos)]
    rfl

theorem outcome_of_far {x : Operand} (h : ∀ d, 4 ≤ distance (encxResult d) x) : outcome x = 0b110#3 :=
  (congrArg (BitVec.extractLsb' 24 3) ((respond_decx x).trans (rspDecx_of_forall_distance h))).trans
    (extractLsb'_rsp_outcome x .uncorrectable true)

/-- An outcome other than detection is that of the operands at the distances which give it. -/
theorem outcome_eq_iff {o : BitVec 3} {K : Finset Nat} (hK : ∀ k ∈ K, k ≤ 3)
    (hnear : ∀ k ≤ 3, (if k = 0 then 0b000#3 else 0b001#3) = o ↔ k ∈ K) (hfar : 0b110#3 ≠ o) (x : Operand) :
    outcome x = o ↔ x ∈ operandsAt K := by
  rcases near_or_far x with ⟨d, h⟩ | h
  · rw [outcome_of_near h, mem_operandsAt_of_near hK h]
    exact hnear _ h
  · rw [outcome_of_far h]
    exact iff_of_false hfar (notMem_operandsAt_of_far hK h)

theorem outcome_eq_detected_iff (x : Operand) : outcome x = 0b110#3 ↔ x ∈ (operandsAt {0, 1, 2, 3})ᶜ := by
  rw [Set.mem_compl_iff]
  rcases near_or_far x with ⟨d, h⟩ | h
  · have hmem : ∀ k ≤ 3, k ∈ ({0, 1, 2, 3} : Finset Nat) := by decide
    have hne : ∀ k ≤ 3, (if k = 0 then 0b000#3 else 0b001#3) ≠ 0b110#3 := by decide
    rw [outcome_of_near h, mem_operandsAt_of_near (by decide) h]
    exact iff_of_false (hne _ h) (not_not_intro (hmem _ h))
  · exact iff_of_true (outcome_of_far h) (notMem_operandsAt_of_far (by decide) h)

/-- Settles O41: 4096 balls of 1, of 24 + 276 + 2024 and, for the complement, of 2325 words. -/
theorem decxOutcomeCounts : Obligations.DecxOutcomeCounts := by
  have hclean : {x | outcome x = 0b000#3} = operandsAt {0} :=
    Set.ext (outcome_eq_iff (by decide) (by decide) (by decide))
  have hcorrected : {x | outcome x = 0b001#3} = operandsAt {1, 2, 3} :=
    Set.ext (outcome_eq_iff (by decide) (by decide) (by decide))
  have hdetected : {x | outcome x = 0b110#3} = (operandsAt {0, 1, 2, 3})ᶜ := Set.ext outcome_eq_detected_iff
  refine ⟨(congrArg Set.ncard hclean).trans ?_, (congrArg Set.ncard hcorrected).trans ?_,
    (congrArg Set.ncard hdetected).trans ?_⟩
  · exact (ncard_operandsAt (by decide)).trans (by decide)
  · exact (ncard_operandsAt (by decide)).trans (by decide)
  · rw [Set.ncard_compl, ← Set.ncard_univ, ncard_univ_bitVec, ncard_operandsAt (by decide)]
    decide

end Sys2Proof.Machine
end

section
/-! Exceptions (60_exceptions.md): the refusal of a command word is the only fault there is, and the four operations that
do not decode report no error. -/

namespace Sys2Proof.Machine

/-- An internal step of the BUSY phase goes on, unless the decoder refuses the latched word. -/
theorem internalStep_cases (s : State) :
    (∃ t, internalStep s = .next t) ∨
    (∃ e, decode s.cmd = .error e) ∧ internalStep s = .fault (.illegalCommand s.cmd (respondIllegal s)) := by
  cases hd : decode s.cmd with
  | ok i =>
    left
    rcases internalStep_ok hd with ⟨_, -, h⟩ | ⟨_, -, h⟩ | ⟨-, h⟩ <;> exact ⟨_, h⟩
  | error e => exact .inr ⟨⟨e, rfl⟩, internalStep_error hd⟩

/-- A transaction goes on, unless the decoder refuses the presented word. -/
theorem transact_cases (s : State) :
    (∃ t, transact s = .next t) ∨
    (∃ e, decode s.cmdWord = .error e) ∧
      transact s = .fault (.illegalCommand s.cmdWord (respondIllegal (accept s))) := by
  cases hd : decode s.cmdWord with
  | ok i => exact .inl ⟨_, transact_ok hd⟩
  | error e => exact .inr ⟨⟨e, rfl⟩, transact_error hd⟩

/-- The word that a step from `s` completes: the presented one of an idle block, or the latched one of a busy block
(10_state.md R31). -/
def CompletesWord (s : State) (w : Word) : Prop :=
  s.rst = false ∧ ((s.phase = .idle ∧ s.cmdValid = true ∧ w = s.cmdWord) ∨ (s.phase = .busy ∧ w = s.cmd))

/-- A step goes on, or it faults with IllegalCommand for a word that it completes and the decoder refuses
(60_exceptions.md R103). -/
theorem step_next_or_illegalCommand (s : State) :
    (∃ t, step s = .next t) ∨
    ∃ w t, step s = .fault (.illegalCommand w t) ∧ (∃ e, decode w = .error e) ∧ CompletesWord s w := by
  rcases step_cases s with ⟨hv, hp, hr, h⟩ | ⟨-, h⟩ | ⟨-, -, -, h⟩ | ⟨hr, hp, h⟩ <;> rw [h]
  · exact (transact_cases s).imp_right fun ⟨he, ht⟩ => ⟨_, _, ht, he, hr, .inl ⟨hp, hv, rfl⟩⟩
  · exact .inl ⟨_, rfl⟩
  · exact .inl ⟨_, rfl⟩
  · exact (internalStep_cases s).imp_right fun ⟨he, ht⟩ => ⟨_, _, ht, he, hr, .inr ⟨hp, rfl⟩⟩

/-- Settles O45: neither outcome of a step is a refusal, and the one that is a fault is IllegalCommand. -/
theorem illegalCommandIsTheOnlyFault : Obligations.IllegalCommandIsTheOnlyFault := by
  intro s
  rcases step_next_or_illegalCommand s with ⟨t, h⟩ | ⟨w, t, h, he, hr, hw⟩
  · exact ⟨by simp [h], by simp [h]⟩
  · refine ⟨by simp [h], fun f hf => ⟨w, t, ?_, he, hr, hw⟩⟩
    rw [h] at hf
    exact (Host.Outcome.fault.inj hf).symm

@[simp] theorem cleanRun_nil (s : State) : CleanRun [] s := trivial

theorem cleanRun_cons (w : Word) (ws : List Word) (s : State) :
    CleanRun (w :: ws) s ↔ ∃ t, issue w s = .next t ∧ CleanRun ws t := Iff.rfl

/-- From an idle state a run is clean when its first word decodes and the run goes on clean from the state it leaves. -/
theorem cleanRun_cons_of_idle (w : Word) (ws : List Word) {s : State} (h : s.phase = .idle) :
    CleanRun (w :: ws) s ↔ (∃ i, decode w = .ok i) ∧ CleanRun ws (settle s (issue w s)) := by
  rw [cleanRun_cons]
  rcases issue_cases w s with ⟨hb, -⟩ | ⟨-, i, hd, hi⟩ | ⟨-, e, hd, hi⟩
  · simp [h] at hb
  · simp [hd, hi]
  · simp [hd, hi]

/-- Settles O44, by induction on the sequence: every issue step leaves the block idle again. -/
theorem cleanRunsIssueNoRefusedWord : Obligations.CleanRunsIssueNoRefusedWord := by
  intro ws
  induction ws with
  | nil => exact fun s _ => by simp
  | cons w ws ih =>
    intro s hs
    obtain ⟨hidle, -⟩ := settle_issue s w hs
    rw [cleanRun_cons_of_idle w ws hs, ih _ hidle, List.forall_mem_cons]

/-- ENC, ENCX, SYN and WGT answer with STATUS = Clean and PMISM = 0. -/
theorem respondInstr_eq_rsp_clean {x : Operand} {i : Instr} (h : i ∈ [Instr.enc x, .encx x, .syn x, .wgt x]) :
    ∃ res, respondInstr i = rsp res .clean false := by
  simp only [List.mem_cons, List.not_mem_nil, or_false] at h
  rcases h with rfl | rfl | rfl | rfl <;> exact ⟨_, rfl⟩

/-- Settles O28: the command completes with a response assembled by `rsp`, whose fields are known. -/
theorem operationsThatDoNotDecodeReportNoError : Obligations.OperationsThatDoNotDecodeReportNoError := by
  intro x i hi s
  obtain ⟨res, hres⟩ := respondInstr_eq_rsp_clean hi
  refine ⟨_, exec_eq i s, ?_⟩
  rw [complete_rspWord, hres]
  exact ⟨statusField_rsp res .clean false, pmismField_rsp res .clean false, illegalField_rsp res .clean false⟩

/-- Settles O48: nothing is accepted, and the transition of an idle block with nothing presented answers its own state. -/
theorem idleBlockDoesNoWork : Obligations.IdleBlockDoesNoWork := by
  intro s hr hp hv
  have hnot : acceptsCommand s = false := by
    rw [← Bool.not_eq_true, acceptsCommand_iff, hv]
    simp
  rw [step_of_not_accepts hnot, edge_of_idle hr hp hv]

end Sys2Proof.Machine
end

section
/-! A command presented while the block is BUSY: transition by transition, the host's inputs driven after each, until the
command in flight has completed (70_reset_and_hazards.md R121; 10_state.md R33). -/

namespace Sys2Proof.Machine

/-- While a command is in flight, a transition with RST = 0 is one of its internal steps, whatever the host drives
after it. -/
theorem CompletesIn.edgeThenDrive {n : Nat} {s : State} (h : CompletesIn (n + 1) s) (hr : s.rst = false) (p : Inputs) :
    CompletesIn n (edgeThenDrive s p) ∧ (edgeThenDrive s p).cmd = s.cmd := by
  obtain ⟨hphase, -, hcmd, hnext⟩ := h
  rw [Machine.edgeThenDrive, edge_of_busy hr hphase]
  exact ⟨hnext.drive p, hcmd⟩

/-- With RST = 0 the command in flight comes one step nearer to its completion with each transition, and is kept. -/
theorem CompletesIn.after_driveRun {k : Nat} {s : State} {ps : List Inputs} (h : CompletesIn (k + ps.length) s)
    (hr : s.rst = false) (hrst : ∀ p ∈ ps, p.rst = false) :
    CompletesIn k (driveRun ps s) ∧ (driveRun ps s).cmd = s.cmd ∧ (driveRun ps s).rst = false := by
  induction ps generalizing s with
  | nil => exact ⟨h, rfl, hr⟩
  | cons p ps ih =>
    obtain ⟨hp, hps⟩ := List.forall_mem_cons.1 hrst
    obtain ⟨hnext, hcmd⟩ := CompletesIn.edgeThenDrive (n := k + ps.length) h hr p
    obtain ⟨hrest, hkept, hlow⟩ := ih hnext hp hps
    exact ⟨hrest, hkept.trans hcmd, hlow⟩

/-- A legal host presents its command, with the same CMD_WORD, up to the completion of the command in flight: no
transition before it accepts anything. -/
theorem LegalHost.presents_driveRun {k : Nat} {s : State} {ps : List Inputs} (hlegal : LegalHost ps s)
    (h : CompletesIn (k + ps.length) s) (hr : s.rst = false) (hv : s.cmdValid = true)
    (hrst : ∀ p ∈ ps, p.rst = false) : (driveRun ps s).cmdValid = true ∧ (driveRun ps s).cmdWord = s.cmdWord := by
  induction ps generalizing s with
  | nil => exact ⟨hv, rfl⟩
  | cons p ps ih =>
    obtain ⟨hp, hps⟩ := List.forall_mem_cons.1 hrst
    obtain ⟨hnext, -⟩ := CompletesIn.edgeThenDrive (n := k + ps.length) h hr p
    obtain ⟨hphase, -⟩ := h
    obtain ⟨hkeeps, hrest⟩ := hlegal
    obtain ⟨hvalid, hword⟩ := hkeeps hv (acceptsCommand_of_busy hphase)
    obtain ⟨hvalidEnd, hwordEnd⟩ := ih hrest hnext hp hvalid hps
    exact ⟨hvalidEnd, hwordEnd.trans hword⟩

/-- Settles O57: the command in flight completes after some number of transitions; until then the block is BUSY, and the
host's promise brings the presented word to the idle block. -/
theorem presentedCommandIsNotLost : Obligations.PresentedCommandIsNotLost := by
  intro s hI hp hr hv
  obtain ⟨n, hn, hle, hcompletes⟩ := exists_completesIn hI hp
  refine ⟨n, hn, hle.trans (stepsLeft_le _), fun ps hlen hrst => ?_, fun ps hlen hrst hlegal => ?_⟩
  · obtain ⟨k, rfl⟩ : ∃ k, n = k + 1 + ps.length := ⟨n - ps.length - 1, by omega⟩
    obtain ⟨⟨hphase, -⟩, hcmd, -⟩ := hcompletes.after_driveRun hr hrst
    exact ⟨acceptsCommand_of_busy hphase, hcmd⟩
  · rw [← hlen, ← Nat.zero_add ps.length] at hcompletes
    obtain ⟨⟨hphase, hvalid, hword⟩, hcmd, hlow⟩ := hcompletes.after_driveRun hr hrst
    obtain ⟨hpresented, hsame⟩ := hlegal.presents_driveRun hcompletes hr hv hrst
    rw [hcmd] at hword
    refine ⟨hvalid, hword, hcmd, (acceptsCommand_iff _).2 ⟨hpresented, hphase, hlow⟩, hsame, ?_⟩
    rw [edge_of_accept hlow hphase hpresented]
    exact ⟨hsame, rfl⟩

end Sys2Proof.Machine
end

section
/-! Reset, and the host's reads and issue steps that the block answers with a refusal (70_reset_and_hazards.md R116 to
R122). -/

namespace Sys2Proof.Machine

theorem cmdReady_iff (s : State) : cmdReady s = true ↔ s.phase = .idle ∧ s.rst = false := by
  simp [cmdReady]

theorem cmdReady_of_rst {s : State} (h : s.rst = true) : cmdReady s = false := by
  simp [cmdReady, h]

theorem acceptsCommand_of_rst {s : State} (h : s.rst = true) : acceptsCommand s = false := by
  rw [acceptsCommand, cmdReady_of_rst h, Bool.and_false]

/-- In IDLE the issue step of a command's own word completes it. -/
theorem issue_encode_of_idle {s : State} (i : Instr) (h : s.phase = .idle) :
    issue (encode i) s =
      .next (complete (accept (s.drive ⟨false, true, encode i⟩)) (respond (encode i))) := by
  rw [issue_of_idle _ h, transact_ok (s := s.drive ⟨false, true, encode i⟩) (decode_encode i), respond_encode]

/-- Settles O46: RST = 1 accepts nothing and leaves the reset values, an idle step keeps them, and a command issued from
them completes. -/
theorem resetAbandonsTheCommand : Obligations.ResetAbandonsTheCommand := by
  intro s hr
  have hstep : step s = .next (resetEdge s) := by
    rw [step_of_not_accepts (acceptsCommand_of_rst hr), edge_of_rst hr]
  refine ⟨resetEdge s, hstep, rfl, rfl, rfl, cmdReady_of_rst hr, acceptsCommand_of_rst hr, rfl, rfl, rfl,
    fun w => ⟨(cmdReady_iff _).2 ⟨rfl, rfl⟩, ?_⟩, fun i => ⟨_, issue_encode_of_idle i rfl, rfl, rfl⟩⟩
  exact ⟨_, idleBlockDoesNoWork _ rfl rfl rfl, rfl, rfl, rfl⟩

/-- Settles O47: the fields are those of the definition; the table is the one of NibbleWeightTable. -/
theorem resetStateHasTheSpecValues : Obligations.ResetStateHasTheSpecValues := by
  obtain ⟨htable, -⟩ := nibbleWeightTable
  exact ⟨reset_phase, reset_rspValid, reset_rspWord, (cmdReady_iff _).2 ⟨reset_phase, reset_rst⟩,
    fun _ _ => cmdReady_of_rst rfl, rfl, htable⟩

/-- Settles O55: the reset state is idle and shows no response. -/
theorem resetStateMeetsTheInvariant : Obligations.ResetStateMeetsTheInvariant :=
  inv_of_idle reset_phase fun h => absurd h Bool.false_ne_true

theorem readResponse_of_invalid {s : State} (h : s.rspValid = false) : readResponse s = .error .noResponse := by
  simp [readResponse, h]

theorem readResponse_of_valid {s : State} (h : s.rspValid = true) : readResponse s = .ok s.rspWord := by
  simp [readResponse, h]

/-- Settles O58: while BUSY the invariant says that RSP_VALID = 0, and an issue step from IDLE leaves its response. -/
theorem readIsRefusedWithoutAResponse : Obligations.ReadIsRefusedWithoutAResponse := by
  refine ⟨fun _ => readResponse_of_invalid, fun _ => readResponse_of_valid,
    fun s hI hp => readResponse_of_invalid (hI.busy_no_response hp), fun s w hp => ?_⟩
  obtain ⟨-, hvalid, hword, -⟩ := settle_issue s w hp
  rw [readResponse_of_valid hvalid, hword]

/-- While BUSY every issue step of a program is refused: a refusal leaves the block as it is. -/
theorem responses_of_busy (ws : List Word) {s : State} (h : s.phase = .busy) :
    responses ws s = List.replicate ws.length (.error .notReady) := by
  induction ws with
  | nil => rfl
  | cons w ws ih => rw [responses_cons_of_busy w ws h, ih, List.length_cons, List.replicate_succ]

theorem not_cleanRun_cons_of_busy (w : Word) (ws : List Word) {s : State} (h : s.phase = .busy) :
    ¬ CleanRun (w :: ws) s := by
  rw [cleanRun_cons, issue_of_busy w h]
  simp

theorem issue_ne_refused_of_idle {s : State} (w : Word) (r : Refusal) (h : s.phase = .idle) :
    issue w s ≠ .refused r := by
  rcases issue_cases w s with ⟨hb, -⟩ | ⟨-, i, -, hi⟩ | ⟨-, e, -, hi⟩
  · simp [h] at hb
  · simp [hi]
  · simp [hi]

/-- Settles O59: BUSY refuses the issue step, and IDLE runs it as the transaction of the issued word. -/
theorem issueIsEnabledOnlyInIdle : Obligations.IssueIsEnabledOnlyInIdle := by
  refine ⟨fun s w ws hp => ?_, fun s w hp => ?_⟩
  · have hissue := issue_of_busy w hp
    exact ⟨hissue, by rw [hissue]; rfl, responses_of_busy (w :: ws) hp, not_cleanRun_cons_of_busy w ws hp⟩
  · obtain ⟨-, hvalid, hword, hcmd⟩ := settle_issue s w hp
    exact ⟨fun r => issue_ne_refused_of_idle w r hp, hcmd, hvalid, hword⟩

end Sys2Proof.Machine
end
